-- ==== Sys2Proof/Word.lean ====
section
/-! DEFINITION. The word types of the machine: 32-bit register words (R10, R74), bytes of the version
string (R25) and the 72-bit command word (R100). -/

namespace Sys2Proof

/-- A register value, mask or operand: an unsigned 32-bit word (R10). -/
abbrev Word := BitVec 32

/-- One character of the captured version string (R25). -/
abbrev Byte := BitVec 8

/-- The command word by which the host names an operation and its operands (R100). -/
abbrev CmdWord := BitVec 72

/-- The word of all ones, written by the clear operation (R154). -/
def Word.ones : Word := 0xFFFFFFFF#32

end Sys2Proof
end

