-- ==== Sys2Proof/Syntax.lean ====
section
/-! DEFINITION. The 27 operations of the opcode map (R102). Every command carries two 32-bit operand words,
whatever the operation uses of them: acceptance loads both into x[A] and x[B] (R101, log 20). -/

namespace Sys2Proof

/-- One accepted command: the operation of R102 with its raw operand words `a` and `b` (R103). -/
inductive Instr where
  | regRead (a b : Word)
  | regWrite (a b : Word)
  | intrEn (a b : Word)
  | intrDis (a b : Word)
  | globalIntrEn (a b : Word)
  | globalIntrDis (a b : Word)
  | globalIntrClear (a b : Word)
  | softReset (a b : Word)
  | softResetAll (a b : Word)
  | phySoftReset (a b : Word)
  | typecAck (a b : Word)
  | auxReset (a b : Word)
  | coreInit (a b : Word)
  | checkCoreId (a b : Word)
  | coreDeinit (a b : Word)
  | setLanesPower (a b : Word)
  | getLanes (a b : Word)
  | setLanes (a b : Word)
  | setRate (a b : Word)
  | getRate (a b : Word)
  | waitBusy (a b : Word)
  | setPreEmphasis (a b : Word)
  | setVswing (a b : Word)
  | setPattern (a b : Word)
  | enableXmit (a b : Word)
  | rateToBw (a b : Word)
  | bwToRate (a b : Word)
deriving DecidableEq, Repr

end Sys2Proof
end

