-- ==== Sys2Proof/Decode.lean ====
section
/-! DEFINITION. The command word (R100 to R102, R125): decoding, total on all 72-bit words, refusing an
unknown op by name, and the encoder. -/

namespace Sys2Proof

/-- Why a command word is no command: its op is not in R102 (R125). -/
inductive DecodeError where
  | unknownOp (op : BitVec 8)
deriving DecidableEq, Repr

/-- The `op` field, bits 71:64 (R100). -/
def CmdWord.op (w : CmdWord) : BitVec 8 := w.extractLsb' 64 8

/-- The first operand, bits 63:32 (R100). -/
def CmdWord.a (w : CmdWord) : Word := w.extractLsb' 32 32

/-- The second operand, bits 31:0 (R100). -/
def CmdWord.b (w : CmdWord) : Word := w.extractLsb' 0 32

/-- The command word of an op and two operands (R100). -/
def cmdWord (op : BitVec 8) (a b : Word) : CmdWord := op ++ (a ++ b)

/-- The opcode map (R102). -/
def opcodeTable : List (BitVec 8 × (Word → Word → Instr)) :=
  [ (0x00#8, .regRead), (0x01#8, .regWrite),
    (0x10#8, .intrEn), (0x11#8, .intrDis), (0x12#8, .globalIntrEn), (0x13#8, .globalIntrDis),
    (0x14#8, .globalIntrClear),
    (0x20#8, .softReset), (0x21#8, .softResetAll), (0x22#8, .phySoftReset), (0x23#8, .typecAck),
    (0x24#8, .auxReset), (0x25#8, .coreInit), (0x26#8, .checkCoreId), (0x27#8, .coreDeinit),
    (0x30#8, .setLanesPower), (0x31#8, .getLanes), (0x32#8, .setLanes), (0x33#8, .setRate),
    (0x34#8, .getRate), (0x35#8, .waitBusy), (0x36#8, .setPreEmphasis), (0x37#8, .setVswing),
    (0x38#8, .setPattern), (0x39#8, .enableXmit),
    (0x40#8, .rateToBw), (0x41#8, .bwToRate) ]

/-- Decoding of a command word (R101, R125). -/
def decode (w : CmdWord) : Except DecodeError Instr :=
  match opcodeTable.lookup w.op with
  | some mk => .ok (mk w.a w.b)
  | none => .error (.unknownOp w.op)

/-- The command word of an instruction (R100, R102). -/
def encode : Instr → CmdWord
  | .regRead a b => cmdWord 0x00#8 a b
  | .regWrite a b => cmdWord 0x01#8 a b
  | .intrEn a b => cmdWord 0x10#8 a b
  | .intrDis a b => cmdWord 0x11#8 a b
  | .globalIntrEn a b => cmdWord 0x12#8 a b
  | .globalIntrDis a b => cmdWord 0x13#8 a b
  | .globalIntrClear a b => cmdWord 0x14#8 a b
  | .softReset a b => cmdWord 0x20#8 a b
  | .softResetAll a b => cmdWord 0x21#8 a b
  | .phySoftReset a b => cmdWord 0x22#8 a b
  | .typecAck a b => cmdWord 0x23#8 a b
  | .auxReset a b => cmdWord 0x24#8 a b
  | .coreInit a b => cmdWord 0x25#8 a b
  | .checkCoreId a b => cmdWord 0x26#8 a b
  | .coreDeinit a b => cmdWord 0x27#8 a b
  | .setLanesPower a b => cmdWord 0x30#8 a b
  | .getLanes a b => cmdWord 0x31#8 a b
  | .setLanes a b => cmdWord 0x32#8 a b
  | .setRate a b => cmdWord 0x33#8 a b
  | .getRate a b => cmdWord 0x34#8 a b
  | .waitBusy a b => cmdWord 0x35#8 a b
  | .setPreEmphasis a b => cmdWord 0x36#8 a b
  | .setVswing a b => cmdWord 0x37#8 a b
  | .setPattern a b => cmdWord 0x38#8 a b
  | .enableXmit a b => cmdWord 0x39#8 a b
  | .rateToBw a b => cmdWord 0x40#8 a b
  | .bwToRate a b => cmdWord 0x41#8 a b

/-- The command word that the opcode table numbers `w` in `nbits` bits; the bits above are 0. -/
def tableWord (nbits w : Nat) : CmdWord := BitVec.ofNat 72 (w % 2 ^ nbits)

/-- The instruction the decoder reads from an instruction whose bits are `w`. -/
def decodeTableWord (nbits w : Nat) : Option Instr :=
  match decode (tableWord nbits w) with
  | .ok i => some i
  | .error _ => none

end Sys2Proof
end

