-- ==== Sys2Proof/Config.lean ====
section
/-! DEFINITION. What an attach fixes: the configuration record `Cfg` (R7), the register map `RegMap`
(R104 to R124), the reset domain (R276). What nothing fixes: the choices of the hardware and time agents
(`EnvStep`, R13, R56) and the opaque free values. -/

namespace Sys2Proof

/-- A field descriptor: a pair (shift, width) inside a 32-bit register (R12). -/
structure Field where
  shift : Nat
  width : Nat
deriving DecidableEq, Repr

/-- The position of a one-bit descriptor (R12: a field of width 1) inside a 32-bit register. -/
abbrev BitPos := Fin 32

/-- One thing per lane, lanes 0 to 3 (R12). -/
structure PerLane (α : Type) where
  lane0 : α
  lane1 : α
  lane2 : α
  lane3 : α
deriving DecidableEq, Repr

/-- The fifteen registers of the CORE space (R30 to R51, R104). -/
inductive CoreReg where
  | verNumber
  | verType
  | id
  | cctl
  | srstCtrl
  | phyifCtrl
  | phyTxEq
  | typeCCtrl
  | ists
  | ien
  | hpdsts
  | hpdIen
  | wrapIntMask
  | auxCtrl
  | cpGpioIntMask
deriving DecidableEq, Repr

/-- The byte offset of every CORE register (R104). -/
structure Offsets where
  verNumber : Word
  verType : Word
  id : Word
  cctl : Word
  srstCtrl : Word
  phyifCtrl : Word
  phyTxEq : Word
  typeCCtrl : Word
  ists : Word
  ien : Word
  hpdsts : Word
  hpdIen : Word
  wrapIntMask : Word
  auxCtrl : Word
  cpGpioIntMask : Word
deriving DecidableEq, Repr

/-- The register map: every offset, bit position, field and constant the source leaves to the device
(R104 to R116, R119, R124). The well-formed ones are those of R117 (`RegMap.wf`). -/
structure RegMap where
  offset : Offsets
  /-- The defined valid reset bits (R105). -/
  srstValid : Word
  /-- The PHY-related reset bits (R105); no relation to `srstValid` is assumed. -/
  srstPhy : Word
  tpsSel : Field
  rate : Field
  lanes : Field
  /-- The PHY width bit (R42). -/
  width : BitPos
  pwrdownComb : Field
  pwrdownCombDown : Word
  pwrdownLane : PerLane BitPos
  xmitEn : PerLane BitPos
  busy : PerLane BitPos
  preemp : PerLane Field
  vswing : PerLane Field
  typecDisableAck : BitPos
  typecDisableStatus : BitPos
  /-- All top-level interrupt sources (R111). -/
  ienAll : Word
  /-- The hot-plug-detect source (R111). -/
  ienHpd : BitPos
  hpdIrq : BitPos
  hpdHotPlug : BitPos
  hpdHotUnplug : BitPos
  hpdIenIrq : BitPos
  hpdIenHotPlug : BitPos
  hpdIenHotUnplug : BitPos
  wrapIntBits : Word
  wrapSetIsUnmask : Bool
  auxBlockEn : BitPos
  auxVodTune : Field
  auxVodTuneCal : Word
  cpGpioBit : BitPos
  cpSetIsMask : Bool
  idExpected : Word
  rbr : Word
  hbr : Word
  hbr2 : Word
  hbr3 : Word
  bwRbr : Word
  bwHbr : Word
  bwHbr2 : Word
  bwHbr3 : Word
  sentinel : Word
deriving DecidableEq, Repr

/-- The hardware-revision tag as two independent flags (R8). -/
structure Quirk where
  hpdErratum : Bool
  combinedPwrdown : Bool
deriving DecidableEq, Repr

/-- What a reset domain can cover: a CORE register or the companion PHY word (R276). -/
inductive SrstTarget where
  | core (r : CoreReg)
  | phycr
deriving DecidableEq, Repr

/-- One row of a reset domain: reset bit `bit` covers the bits `mask` of `target` (R276). -/
structure SrstCover where
  bit : BitPos
  target : SrstTarget
  mask : Word
deriving DecidableEq, Repr

/-- The open parameter SRST_DOMAIN (R276): the conservative reference one, or one a device gives. -/
inductive SrstDomain where
  | reference
  | custom (rows : List SrstCover)
deriving DecidableEq, Repr

/-- The configuration record, fixed at attach and constant until detach (R7). Times are microseconds. -/
structure Cfg where
  simMode : Bool
  quirk : Quirk
  cpEnabled : Bool
  map : RegMap
  tSrstHoldMin : Nat
  /-- Nominal only: no rule depends on it (R284). -/
  tSrstHoldMax : Nat
  tAuxSettle : Nat
  tPoll : Nat
  tBusyDeadline : Nat
  verNumber : Word
  verType : Word
  idValue : Word
  srstDomain : SrstDomain
deriving DecidableEq, Repr

/-- The stored words of the CORE register file: every register but the three RO-const ones, whose
content is configuration (R30 to R32). RO-hw bits live in the word of their register. -/
structure CoreFile where
  cctl : Word
  srstCtrl : Word
  phyifCtrl : Word
  phyTxEq : Word
  typeCCtrl : Word
  ists : Word
  ien : Word
  hpdsts : Word
  hpdIen : Word
  wrapIntMask : Word
  auxCtrl : Word
  cpGpioIntMask : Word
deriving DecidableEq, Repr, Inhabited

/-- The values that a held soft reset leaves in the bits it covers (R276). -/
structure ResetFill where
  core : CoreFile
  phycr4 : Word
deriving DecidableEq, Repr, Inhabited

/-- One step of the hardware agent (R56): which status bits fire, what it drives on the RO-hw bits, and,
while a reset bit is held, what the covered bits become. Bits a field may not touch are ignored. -/
structure HwStep where
  istsSet : Word
  hpdSet : Word
  hpdLevel : Word
  busy : Word
  typecDisable : Word
  cpEvent : Bool
  resetFill : Option ResetFill
deriving DecidableEq, Repr, Inhabited

/-- What the time and hardware agents do before one micro-step (R13, R27): `dt` microseconds pass, any
number of hardware steps happen, and, if the micro-step is a wait, it lasts `extra` longer than asked. -/
structure EnvStep where
  dt : Nat
  extra : Nat
  hw : List HwStep
deriving DecidableEq, Repr, Inhabited

/-- The sequencer and capture registers as an attach leaves them: unspecified (R271). -/
structure SeqFill where
  xA : Word
  xB : Word
  xT : Word
  xM : Word
  xR : Word
  deadline : Nat
  statusCode : Fin 5
  verstr : Vector Byte 10
  version : Word
deriving DecidableEq, Repr, Inhabited

/-- FREE VALUE (log 6): what the environment does at the n-th environment gap, where nothing decided it. -/
opaque Config.env : Nat → EnvStep

/-- FREE VALUE (log 8): the unspecified sequencer registers after an attach (R271). -/
opaque Config.freshSeq : Nat → SeqFill

/-- FREE VALUE (log 13): the result of `1 << f` for a field value `f` of 32 or more, which R128 leaves out. -/
opaque Config.wideShift : Nat → Word

end Sys2Proof
end

