-- ==== Sys2Proof/Machine/Fields.lean ====
section
/-! DEFINITION. Field and bit descriptors as masks (R12), `get` and `put` (R11), lane indexing (R82), and
the masks the map's bits form together. -/

namespace Sys2Proof

/-- `mask = ((1 << width) - 1) << shift` (R12). -/
def Field.mask (f : Field) : Word := ((1#32 <<< f.width) - 1#32) <<< f.shift

/-- The mask of a one-bit descriptor (R12). -/
def bitMask (p : BitPos) : Word := 1#32 <<< p.val

/-- One bit of a word (R10). -/
def bitAt (v : Word) (p : BitPos) : Bool := v.getLsbD p.val

/-- `get(v, F) = (v & F.mask) >> F.shift` (R11). -/
def getField (v : Word) (f : Field) : Word := (v &&& f.mask) >>> f.shift

/-- `put(v, F, n) = (v & ~F.mask) | ((n << F.shift) & F.mask)` (R11). -/
def putField (v : Word) (f : Field) (n : Word) : Word :=
  (v &&& ~~~f.mask) ||| ((n <<< f.shift) &&& f.mask)

/-- The bits `m` taken from `new`, the others from `old`. -/
def blend (m old new : Word) : Word := (old &&& ~~~m) ||| (new &&& m)

/-- The item of lane `l`, for `l` in 0..3 (R82). -/
def PerLane.get {α : Type} (p : PerLane α) : Nat → α
  | 0 => p.lane0
  | 1 => p.lane1
  | 2 => p.lane2
  | _ => p.lane3

/-- The mask of all four lanes of a bit family. -/
def PerLane.allMask (p : PerLane BitPos) : Word :=
  bitMask p.lane0 ||| bitMask p.lane1 ||| bitMask p.lane2 ||| bitMask p.lane3

/-- The three event bits of HPDSTS, HPD_EVT_ALL (R112). -/
def RegMap.hpdEvtAll (m : RegMap) : Word :=
  bitMask m.hpdIrq ||| bitMask m.hpdHotPlug ||| bitMask m.hpdHotUnplug

/-- The three enable bits of HPD_IEN, HPD_IEN_ALL (R156). -/
def RegMap.hpdIenAll (m : RegMap) : Word :=
  bitMask m.hpdIenIrq ||| bitMask m.hpdIenHotPlug ||| bitMask m.hpdIenHotUnplug

/-- The byte offset of a CORE register (R104). -/
def RegMap.offsetOf (m : RegMap) : CoreReg → Word
  | .verNumber => m.offset.verNumber
  | .verType => m.offset.verType
  | .id => m.offset.id
  | .cctl => m.offset.cctl
  | .srstCtrl => m.offset.srstCtrl
  | .phyifCtrl => m.offset.phyifCtrl
  | .phyTxEq => m.offset.phyTxEq
  | .typeCCtrl => m.offset.typeCCtrl
  | .ists => m.offset.ists
  | .ien => m.offset.ien
  | .hpdsts => m.offset.hpdsts
  | .hpdIen => m.offset.hpdIen
  | .wrapIntMask => m.offset.wrapIntMask
  | .auxCtrl => m.offset.auxCtrl
  | .cpGpioIntMask => m.offset.cpGpioIntMask

/-- Every CORE register, in the order of R104. -/
def CoreReg.all : List CoreReg :=
  [.verNumber, .verType, .id, .cctl, .srstCtrl, .phyifCtrl, .phyTxEq, .typeCCtrl, .ists, .ien,
   .hpdsts, .hpdIen, .wrapIntMask, .auxCtrl, .cpGpioIntMask]

/-- The content protection mask exists only when content protection is present (R51, log 11). -/
def Cfg.hasReg (c : Cfg) : CoreReg → Bool
  | .cpGpioIntMask => c.cpEnabled
  | _ => true

/-- The register a raw offset names, if any (R75, R141). -/
def Cfg.regAt (c : Cfg) (off : Word) : Option CoreReg :=
  CoreReg.all.find? fun r => c.hasReg r && (c.map.offsetOf r == off)

/-- The one address of the companion PHY interface that is used (R52, R191). -/
def phycrCal : Word := 4#32

/-- The RO-hw bits of a register: driven by HW, deaf to writes (R29, R40, R44, R47, log 10). -/
def RegMap.roHwMask (m : RegMap) : CoreReg → Word
  | .phyifCtrl => m.busy.allMask
  | .typeCCtrl => bitMask m.typecDisableStatus
  | .hpdsts => ~~~m.hpdEvtAll
  | _ => 0#32

/-- The W1C bits of a register (R29, R45, R47). -/
def RegMap.w1cMask (m : RegMap) : CoreReg → Word
  | .ists => m.ienAll
  | .hpdsts => m.hpdEvtAll
  | _ => 0#32

/-- The bits of a register that a write leaves alone: RO-const, RO-hw, and the reserved bits of ISTS
(R73, R79, log 9). -/
def RegMap.deafMask (m : RegMap) : CoreReg → Word
  | .verNumber | .verType | .id => Word.ones
  | .ists => ~~~m.ienAll
  | r => m.roHwMask r

/-- The bits of a register that a reset domain may cover: RW, W1C and reserved bits of every register but
SRST_CTRL (R276, R277). -/
def RegMap.coverable (m : RegMap) : CoreReg → Word
  | .verNumber | .verType | .id | .srstCtrl => 0#32
  | r => ~~~m.roHwMask r

/-- A write bit by bit (R73): deaf bits keep, W1C bits clear where `v` is 1, the others take `v`. -/
def RegMap.written (m : RegMap) (r : CoreReg) (old v : Word) : Word :=
  let w1c := m.w1cMask r
  let deaf := m.deafMask r
  (old &&& deaf) ||| (old &&& w1c &&& ~~~deaf &&& ~~~v) ||| (v &&& ~~~deaf &&& ~~~w1c)

/-- The bits of `target` that the held reset bits cover (R276). -/
def SrstDomain.mask (d : SrstDomain) (held : Word) (target : SrstTarget) : Word :=
  match d with
  | .reference => if held = 0#32 then 0#32 else Word.ones
  | .custom rows =>
    rows.foldl (fun acc c => if bitAt held c.bit && (c.target == target) then acc ||| c.mask else acc) 0#32

/-- The bits of a CORE register that are unspecified while `held` is held. -/
def Cfg.fillMask (c : Cfg) (held : Word) (r : CoreReg) : Word :=
  c.srstDomain.mask held (.core r) &&& c.map.coverable r

/-- The stored word of a register; the RO-const registers have none. -/
def CoreFile.get (f : CoreFile) : CoreReg → Word
  | .verNumber | .verType | .id => 0#32
  | .cctl => f.cctl
  | .srstCtrl => f.srstCtrl
  | .phyifCtrl => f.phyifCtrl
  | .phyTxEq => f.phyTxEq
  | .typeCCtrl => f.typeCCtrl
  | .ists => f.ists
  | .ien => f.ien
  | .hpdsts => f.hpdsts
  | .hpdIen => f.hpdIen
  | .wrapIntMask => f.wrapIntMask
  | .auxCtrl => f.auxCtrl
  | .cpGpioIntMask => f.cpGpioIntMask

/-- The file with one stored word replaced. -/
def CoreFile.set (f : CoreFile) (r : CoreReg) (v : Word) : CoreFile :=
  match r with
  | .verNumber | .verType | .id => f
  | .cctl => { f with cctl := v }
  | .srstCtrl => { f with srstCtrl := v }
  | .phyifCtrl => { f with phyifCtrl := v }
  | .phyTxEq => { f with phyTxEq := v }
  | .typeCCtrl => { f with typeCCtrl := v }
  | .ists => { f with ists := v }
  | .ien => { f with ien := v }
  | .hpdsts => { f with hpdsts := v }
  | .hpdIen => { f with hpdIen := v }
  | .wrapIntMask => { f with wrapIntMask := v }
  | .auxCtrl => { f with auxCtrl := v }
  | .cpGpioIntMask => { f with cpGpioIntMask := v }

/-- Every word of the file, by the register it belongs to. -/
def CoreFile.ofFn (g : CoreReg → Word) : CoreFile :=
  { cctl := g .cctl, srstCtrl := g .srstCtrl, phyifCtrl := g .phyifCtrl, phyTxEq := g .phyTxEq,
    typeCCtrl := g .typeCCtrl, ists := g .ists, ien := g .ien, hpdsts := g .hpdsts, hpdIen := g .hpdIen,
    wrapIntMask := g .wrapIntMask, auxCtrl := g .auxCtrl, cpGpioIntMask := g .cpGpioIntMask }

/-- The file after a held reset has taken the free values `fill` into the bits it covers (R276). -/
def CoreFile.resetFilled (f : CoreFile) (c : Cfg) (held : Word) (fill : CoreFile) : CoreFile :=
  CoreFile.ofFn fun r => blend (c.fillMask held r) (f.get r) (fill.get r)

/-- The file after HW has fired status bits and driven the RO-hw bits (R56). -/
def CoreFile.driven (f : CoreFile) (m : RegMap) (h : HwStep) : CoreFile :=
  { f with
    ists := f.ists ||| (h.istsSet &&& m.ienAll)
    hpdsts := blend (m.roHwMask .hpdsts) f.hpdsts h.hpdLevel ||| (h.hpdSet &&& m.hpdEvtAll)
    phyifCtrl := blend (m.roHwMask .phyifCtrl) f.phyifCtrl h.busy
    typeCCtrl := blend (m.roHwMask .typeCCtrl) f.typeCCtrl h.typecDisable }

end Sys2Proof
end

