-- ==== Sys2Proof/Machine/RefMap.lean ====
section
/-! DEFINITION. The reference map `RegMap.ref` (R104 to R116, R119, R124, R118) and the reference
configuration (R7). Unaudited values of open parameters, UNVERIFIED (log 23): no statement rests on them
without naming them. -/

namespace Sys2Proof

/-- The reference offsets (R104). -/
def Offsets.ref : Offsets :=
  { verNumber := 0x000#32, verType := 0x004#32, id := 0x008#32, cctl := 0x200#32, srstCtrl := 0x204#32,
    phyifCtrl := 0xA00#32, phyTxEq := 0xA04#32, typeCCtrl := 0xC08#32, ists := 0xD00#32, ien := 0xD04#32,
    hpdsts := 0xD08#32, hpdIen := 0xD0C#32, wrapIntMask := 0xE00#32, auxCtrl := 0xE04#32,
    cpGpioIntMask := 0xE08#32 }

/-- The reference register map (R105 to R116, R119, R124). -/
def RegMap.ref : RegMap :=
  { offset := Offsets.ref
    srstValid := 0x1F#32, srstPhy := 0x02#32
    tpsSel := ⟨0, 4⟩, rate := ⟨4, 2⟩, lanes := ⟨6, 2⟩, width := 25
    pwrdownComb := ⟨17, 4⟩, pwrdownCombDown := 3#32, pwrdownLane := ⟨17, 18, 19, 20⟩
    xmitEn := ⟨8, 9, 10, 11⟩, busy := ⟨12, 13, 14, 15⟩
    preemp := ⟨⟨0, 2⟩, ⟨6, 2⟩, ⟨12, 2⟩, ⟨18, 2⟩⟩
    vswing := ⟨⟨2, 2⟩, ⟨8, 2⟩, ⟨14, 2⟩, ⟨20, 2⟩⟩
    typecDisableAck := 0, typecDisableStatus := 1
    ienAll := 0xFF#32, ienHpd := 0
    hpdIrq := 0, hpdHotPlug := 1, hpdHotUnplug := 2
    hpdIenIrq := 0, hpdIenHotPlug := 1, hpdIenHotUnplug := 2
    wrapIntBits := 3#32, wrapSetIsUnmask := true
    auxBlockEn := 10, auxVodTune := ⟨4, 2⟩, auxVodTuneCal := 3#32
    cpGpioBit := 0, cpSetIsMask := true
    idExpected := 0x900116C3#32
    rbr := 0#32, hbr := 1#32, hbr2 := 2#32, hbr3 := 3#32
    bwRbr := 0x06#32, bwHbr := 0x0A#32, bwHbr2 := 0x14#32, bwHbr3 := 0x1E#32
    sentinel := 0xFFFFFFEA#32 }

/-- The reference configuration (R7); the three identity words, which R7 leaves free, are 0 (log 3). -/
def Cfg.ref : Cfg :=
  { simMode := false, quirk := ⟨false, false⟩, cpEnabled := false, map := RegMap.ref
    tSrstHoldMin := 10, tSrstHoldMax := 20, tAuxSettle := 1000, tPoll := 1, tBusyDeadline := 100000
    verNumber := 0#32, verType := 0#32, idValue := 0#32, srstDomain := .reference }

end Sys2Proof
end

