-- ==== Sys2Proof/Machine/State.lean ====
section
/-! DEFINITION. The state of the machine (R20): the handle, the sequencer and capture registers, the CORE
register file, the companion PHY word, the hidden state, the clock and the observation trace, beside the
model's own inputs (the host actions not yet performed and the environment choices already decided). -/

namespace Sys2Proof.Machine

/-- The outcome of the last finished command (R24, R231). -/
inductive Status where
  | ok
  | busy
  | identityMismatch
  | invalidArgument
  | refused
deriving DecidableEq, Repr

/-- The operation a micro-sequence belongs to: the mnemonics of R102. -/
inductive Op where
  | regRead | regWrite
  | intrEn | intrDis | globalIntrEn | globalIntrDis | globalIntrClear
  | softReset | softResetAll | phySoftReset | typecAck | auxReset | coreInit | checkCoreId | coreDeinit
  | setLanesPower | getLanes | setLanes | setRate | getRate | waitBusy | setPreEmphasis | setVswing
  | setPattern | enableXmit
  | rateToBw | bwToRate
deriving DecidableEq, Repr

/-- The program counter (R22): IDLE, or the operation and the number of micro-steps it has advanced by
(log 18). -/
inductive Pc where
  | idle
  | running (op : Op) (step : Nat)
deriving DecidableEq, Repr

/-- What a `do` saves: the caller's pc and operands (R23). -/
structure Frame where
  pc : Pc
  xA : Word
  xB : Word
deriving DecidableEq, Repr

/-- The event ids of the log sink (R232). -/
inductive LogId where
  | identityMismatch
  | busy
  | invalidArgument
  | invalidLaneCount
  | invalidRate
  | invalidLaneIndex
  | levelClamped
  | invalidLanes
  | illegalCommand
deriving DecidableEq, Repr

/-- The two address spaces (R70). -/
inductive Space where
  | core
  | phycr
deriving DecidableEq, Repr

/-- One entry of the observation trace (R28). -/
inductive Event where
  | memRead (space : Space) (off value : Word)
  | memWrite (space : Space) (off value : Word)
  | wait (start stop : Nat)
  | log (id : LogId)
  | callSecure
  | ret (status : Status) (value : Word)
deriving DecidableEq, Repr

/-- What the two interrupt lines read after one step of HW or SEQ, when, and after how many trace entries (R242). -/
structure LineSample where
  now : Nat
  events : Nat
  irqOut : Bool
  cpIrqOut : Bool
deriving DecidableEq, Repr

/-- What the host can do to the block (R13, R101, R272, R273). -/
inductive HostAction where
  | attach (base : Nat) (cfg : Cfg) (windowReadable : Bool)
  | detach
  | command (w : CmdWord)
deriving DecidableEq, Repr

/-- The state of one core (R20, R249). -/
structure State where
  /-- The handle is attached (R26). -/
  attached : Bool
  /-- The base address bound to the handle; no rule uses it (R71). -/
  base : Nat
  /-- The configuration the last attach gave (R7, R26). -/
  cfg : Cfg
  /-- First operand (R21). -/
  xA : Word
  /-- Second operand (R21). -/
  xB : Word
  /-- Temporary (R21). -/
  xT : Word
  /-- Bit mask (R21). -/
  xM : Word
  /-- Returned value (R21). -/
  xR : Word
  /-- The time at which the busy poll gives up (R27). -/
  deadline : Nat
  status : Status
  pc : Pc
  /-- Innermost caller first (R23). -/
  retStack : List Frame
  /-- The captured version string (R25). -/
  verstr : Vector Byte 10
  /-- The raw second version word (R25). -/
  version : Word
  /-- The stored words of the CORE registers (R29 to R51). -/
  core : CoreFile
  /-- The last value written to the companion PHY address 4 (R52). -/
  phycr4 : Word
  /-- The earliest time the AUX channel is usable (R53). -/
  auxReadyAt : Nat
  /-- The event line of the CP GPIO source, a level that HW redraws (R242, log 25). -/
  cpEvent : Bool
  /-- Microseconds (R27). -/
  now : Nat
  /-- Oldest event first (R28). -/
  trace : List Event
  /-- MODEL'S OWN (log 24): the levels of the interrupt lines after every step of HW and SEQ, oldest first, so that
  a run shows the pulses inside a command (R242, R245). -/
  lines : List LineSample
  /-- MODEL'S OWN (log 4): the host actions not yet performed, next first. -/
  host : List HostAction
  /-- MODEL'S OWN (log 6): environment choices already decided, next first. -/
  envScript : List EnvStep
  /-- MODEL'S OWN (log 6, log 8): how many free choices have been drawn. -/
  envTick : Nat
deriving DecidableEq, Repr

/-- Why the machine stops with a fault. -/
inductive Fault where
  /-- Raised by an attach whose register window is not readable (R89, R272, U18): a fatal configuration
  error at attach time. Safe: the spec's own outcome, and no state follows. -/
  | windowUnmapped
deriving DecidableEq, Repr

/-- Why a step has no meaning. No modelled instruction answers with one: all are host actions outside the
host's duties. -/
inductive Refusal where
  /-- Raised by an arm of `exec` whose instruction has no meaning in this model. Safe: the machine stops. -/
  | notModelled (mnemonic : String)
  /-- Raised by the host port when a command is presented while one runs (R14, U13). Safe: the machine stops. -/
  | commandInFlight
  /-- Raised by the host port when the handle is attached while a command runs (R272, log 17). Safe: it stops. -/
  | attachInFlight
  /-- Raised by the host port when the handle is detached while a command runs (R273, U16). Safe: it stops. -/
  | detachInFlight
  /-- Raised by the host port when an attached handle is attached again (R294, U16). Safe: the machine stops. -/
  | doubleAttach
  /-- Raised by the host port when an attach gives a map that is not well formed, of which no rule speaks
  (R117, log 16). Safe: the machine stops. -/
  | illFormedConfig
deriving DecidableEq, Repr

/-- The machine after hardware reset and before any attach (R55, R271): detached, idle, empty trace. Every
value the spec leaves unspecified is 0, `ok` or empty, DESIGN CHOICE (log 1, log 2, log 3). -/
def State.reset : State :=
  { attached := false, base := 0, cfg := Cfg.ref
    xA := 0#32, xB := 0#32, xT := 0#32, xM := 0#32, xR := 0#32, deadline := 0
    status := .ok, pc := .idle, retStack := []
    verstr := #v[0, 0, 0, 0, 0, 0, 0, 0, 0, 0], version := 0#32
    core :=
      { cctl := 0#32, srstCtrl := 0#32, phyifCtrl := 0#32, phyTxEq := 0#32, typeCCtrl := 0#32,
        ists := 0#32, ien := 0#32, hpdsts := 0#32, hpdIen := 0#32, wrapIntMask := 0#32,
        auxCtrl := 0#32, cpGpioIntMask := 0#32 }
    phycr4 := 0#32, auxReadyAt := 0, cpEvent := false
    now := 0, trace := [], lines := [], host := [], envScript := [], envTick := 0 }

end Sys2Proof.Machine
end

