-- ==== Sys2Proof/Machine/Flags.lean ====
section
/-! DEFINITION. Conditions computed from the state: status codes (R231), the content of a CORE register
(R72), the bits held in reset (R53), the interrupt output equations (R242) and the logical projections
(R54). -/

namespace Sys2Proof.Machine

/-- The status codes (R231). -/
def Status.code : Status → Int
  | .ok => 0
  | .busy => -16
  | .identityMismatch => -19
  | .invalidArgument => -22
  | .refused => -38

/-- The five statuses in the order of R231. -/
def Status.ofIndex (n : Fin 5) : Status :=
  match n.val with
  | 0 => .ok
  | 1 => .busy
  | 2 => .identityMismatch
  | 3 => .invalidArgument
  | _ => .refused

/-- The word a CORE register holds now: configured for the RO-const registers, stored for the others,
whose RO-hw bits HW drives in place (R29 to R51, R72). -/
def State.coreWord (s : State) : CoreReg → Word
  | .verNumber => s.cfg.verNumber
  | .verType => s.cfg.verType
  | .id => s.cfg.idValue
  | r => s.core.get r

/-- The sub-blocks held in reset: the 1 bits of SRST_CTRL & SRST_VALID (R34, R53 e). -/
def State.held (s : State) : Word := s.core.srstCtrl &&& s.cfg.map.srstValid

/-- Some unmasked hot-plug-detect sub-event is pending (R242; each sub-event against its own enable bit,
log 12). -/
def State.hpdActive (s : State) : Bool :=
  let m := s.cfg.map
  (bitAt s.core.hpdsts m.hpdIrq && bitAt s.core.hpdIen m.hpdIenIrq)
    || (bitAt s.core.hpdsts m.hpdHotPlug && bitAt s.core.hpdIen m.hpdIenHotPlug)
    || (bitAt s.core.hpdsts m.hpdHotUnplug && bitAt s.core.hpdIen m.hpdIenHotUnplug)

/-- Some enabled top-level source is pending (R242). -/
def State.coreActive (s : State) : Bool :=
  decide (s.core.ists &&& s.core.ien &&& s.cfg.map.ienAll ≠ 0#32)

/-- The wrapper lets the interrupt through (R242). -/
def State.wrapOpen (s : State) : Bool :=
  let m := s.cfg.map
  let gate := s.core.wrapIntMask &&& m.wrapIntBits
  if m.wrapSetIsUnmask then decide (gate ≠ 0#32) else decide (gate ≠ m.wrapIntBits)

/-- The interrupt output, a level (R242). -/
def State.irqOut (s : State) : Bool := s.coreActive && s.wrapOpen

/-- The CP GPIO source is masked (R51, R115); of use only with content protection (log 11). -/
def State.cpMasked (s : State) : Bool :=
  bitAt s.core.cpGpioIntMask s.cfg.map.cpGpioBit == s.cfg.map.cpSetIsMask

/-- The CP GPIO source's own line; it exists only with content protection (R242, R239). -/
def State.cpIrqOut (s : State) : Bool := s.cfg.cpEnabled && s.cpEvent && !s.cpMasked

/-- The host's address of a register: `base + off` (R71). -/
def State.hostAddress (s : State) (r : CoreReg) : Nat := s.base + (s.cfg.map.offsetOf r).toNat

/-- The logical view of the interrupt masks (R16, R54): the top-level and the sub-event enables, and the two
gates beside them, whose form is a DESIGN CHOICE (log 26). -/
structure InterruptMaskState where
  global : Word
  hpd : Word
  wrapper : Word
  cpMasked : Option Bool
deriving DecidableEq, Repr

/-- The interrupt mask projection (R54). DESIGN CHOICE: without content protection CP_GPIO_INT_MASK does not exist (R51)
and the view has no CP part (log 26). -/
def State.interruptMasks (s : State) : InterruptMaskState :=
  { global := s.core.ien &&& s.cfg.map.ienAll
    hpd := s.core.hpdIen &&& s.cfg.map.hpdIenAll
    wrapper := s.core.wrapIntMask &&& s.cfg.map.wrapIntBits
    cpMasked := if s.cfg.cpEnabled then some s.cpMasked else none }

/-- `1 << f` for a field value `f` (R121, R128); for 32 and more the spec states no value (log 13). -/
def oneShl (f : Word) : Word :=
  if f.toNat < 32 then 1#32 <<< f.toNat else Config.wideShift f.toNat

/-- The logical view of the PHY configuration (R16, R54). -/
structure PhyLaneConfig where
  laneCount : Word
  rate : Word
  pattern : Word
  preemp : PerLane Word
  vswing : PerLane Word
  xmit : PerLane Bool
  powered : PerLane Bool
deriving DecidableEq, Repr

/-- The same function at every lane. -/
def mapLanes {α β : Type} (f : α → β) (p : PerLane α) : PerLane β :=
  { lane0 := f p.lane0, lane1 := f p.lane1, lane2 := f p.lane2, lane3 := f p.lane3 }

/-- The PHY configuration projection (R54). -/
def State.phyConfig (s : State) : PhyLaneConfig :=
  let m := s.cfg.map
  let v := s.core.phyifCtrl
  { laneCount := oneShl (getField v m.lanes)
    rate := getField v m.rate
    pattern := getField v m.tpsSel
    preemp := mapLanes (getField s.core.phyTxEq) m.preemp
    vswing := mapLanes (getField s.core.phyTxEq) m.vswing
    xmit := mapLanes (bitAt v) m.xmitEn
    powered :=
      if s.cfg.quirk.combinedPwrdown then
        mapLanes (fun _ => decide (getField v m.pwrdownComb = 0#32)) m.pwrdownLane
      else mapLanes (fun p => !bitAt v p) m.pwrdownLane }

end Sys2Proof.Machine
end

