-- ==== Sys2Proof/Machine/Operands.lean ====
section
/-! DEFINITION. The operand forms (R103): truth of a Boolean operand, the lane-count table, the clamp, the
lane-count-to-bitmask mapping, rate and bandwidth tables, and the polarity helpers of the masks. -/

namespace Sys2Proof.Machine

/-- A Boolean operand is true when its word is non-zero (R101). -/
def isTrue (a : Word) : Bool := decide (a ≠ 0#32)

/-- A lane count that exists: 1, 2 or 4 (R121, R122). -/
def validLanes (n : Word) : Bool := n == 1#32 || n == 2#32 || n == 4#32

/-- The lane-count encoding (R121): log2 of 1, 2 or 4. -/
def laneCode (n : Word) : Option Word :=
  if n = 1#32 then some 0#32 else if n = 2#32 then some 1#32 else if n = 4#32 then some 2#32 else none

/-- `lane_bits(K, n)` without its log event (R122). -/
def laneBits (k : PerLane BitPos) (n : Word) : Word :=
  if n = 1#32 then bitMask k.lane0
  else if n = 2#32 then bitMask k.lane0 ||| bitMask k.lane1
  else if n = 4#32 then bitMask k.lane0 ||| bitMask k.lane1 ||| bitMask k.lane2 ||| bitMask k.lane3
  else 0#32

/-- A level above 3 is clamped to 3, unsigned on the whole word (R123). -/
def clamp3 (n : Word) : Word := if 3 < n.toNat then 3#32 else n

/-- A lane index or level above 3, unsigned on the whole word (R123, R199). -/
def aboveThree (n : Word) : Bool := decide (3 < n.toNat)

/-- The operand is one of the four rate encodings, the whole word compared (R119, 90_conflicts.md C8). -/
def validRate (m : RegMap) (n : Word) : Bool := n == m.rbr || n == m.hbr || n == m.hbr2 || n == m.hbr3

/-- The bandwidth constant of a rate (R220). -/
def bwOfRate (m : RegMap) (n : Word) : Option Word :=
  if n = m.rbr then some m.bwRbr
  else if n = m.hbr then some m.bwHbr
  else if n = m.hbr2 then some m.bwHbr2
  else if n = m.hbr3 then some m.bwHbr3
  else none

/-- The rate of a bandwidth constant (R221). -/
def rateOfBw (m : RegMap) (n : Word) : Option Word :=
  if n = m.bwRbr then some m.rbr
  else if n = m.bwHbr then some m.hbr
  else if n = m.bwHbr2 then some m.hbr2
  else if n = m.bwHbr3 then some m.hbr3
  else none

/-- `wrap_unmask` (R155). -/
def wrapUnmask (m : RegMap) (v : Word) : Word :=
  if m.wrapSetIsUnmask then v ||| m.wrapIntBits else v &&& ~~~m.wrapIntBits

/-- `wrap_mask`, the other branch (R155). -/
def wrapMask (m : RegMap) (v : Word) : Word :=
  if m.wrapSetIsUnmask then v &&& ~~~m.wrapIntBits else v ||| m.wrapIntBits

/-- `cp_mask` (R157). -/
def cpMask (m : RegMap) (v : Word) : Word :=
  if m.cpSetIsMask then v ||| bitMask m.cpGpioBit else v &&& ~~~bitMask m.cpGpioBit

/-- `cp_unmask`, the other branch (R157). -/
def cpUnmask (m : RegMap) (v : Word) : Word :=
  if m.cpSetIsMask then v &&& ~~~bitMask m.cpGpioBit else v ||| bitMask m.cpGpioBit

/-- TYPE_C_CTRL with the acknowledge bit cleared, then set if the status bit read is 1 (R173). -/
def typecAcked (m : RegMap) (t : Word) : Word :=
  let cleared := t &&& ~~~bitMask m.typecDisableAck
  if bitAt t m.typecDisableStatus then cleared ||| bitMask m.typecDisableAck else cleared

/-- AUX_CTRL with the block-enable bit as asked and the tuning field at its calibrated value (R174). -/
def auxProgrammed (m : RegMap) (enable t : Word) : Word :=
  let e := if isTrue enable then t ||| bitMask m.auxBlockEn else t &&& ~~~bitMask m.auxBlockEn
  putField e m.auxVodTune m.auxVodTuneCal

/-- PHYIF_CTRL with the PHY width chosen by simulated mode (R175). -/
def widthChosen (c : Cfg) (t : Word) : Word :=
  if c.simMode then t &&& ~~~bitMask c.map.width else t ||| bitMask c.map.width

/-- PHYIF_CTRL with all four lanes powered up (`open` non-zero) or down, in the layout in use (R190). -/
def lanesPowered (c : Cfg) (isOpen t : Word) : Word :=
  if c.quirk.combinedPwrdown then
    putField t c.map.pwrdownComb (if isTrue isOpen then 0#32 else c.map.pwrdownCombDown)
  else if isTrue isOpen then t &&& ~~~c.map.pwrdownLane.allMask
  else t ||| c.map.pwrdownLane.allMask

/-- The version string with characters 0 to 4 from the first version word, most significant byte first,
and '.' at 1 (R176 stage 5). -/
def verstrNumber (v : Vector Byte 10) (w : Word) : Vector Byte 10 :=
  ((((v.set 0 (w.extractLsb' 24 8)).set 1 0x2E#8).set 2 (w.extractLsb' 16 8)).set 3
    (w.extractLsb' 8 8)).set 4 (w.extractLsb' 0 8)

/-- The version string with '-' at 5 and characters 6 to 9 from the second version word (R176 stage 6). -/
def verstrType (v : Vector Byte 10) (w : Word) : Vector Byte 10 :=
  ((((v.set 5 0x2D#8).set 6 (w.extractLsb' 24 8)).set 7 (w.extractLsb' 16 8)).set 8
    (w.extractLsb' 8 8)).set 9 (w.extractLsb' 0 8)

end Sys2Proof.Machine
end

