-- ==== Sys2Proof/Machine/Ops.lean ====
section
/-! DEFINITION. The named operations of the sequencer (R11): the micro-steps (read, write, wait, log, call,
ret), each preceded by one move of the environment (R13, R56, R78), the read-modify-write idiom (R80),
propagated errors and the end of a command (R230, R235, R237), nested calls (R23). -/

namespace Sys2Proof.Machine

/-! ### Updates of single registers -/

/-- `x[B] <- v`. -/
def State.withB (s : State) (v : Word) : State := { s with xB := v }

/-- `x[T] <- v`. -/
def State.withT (s : State) (v : Word) : State := { s with xT := v }

/-- `x[M] <- v`. -/
def State.withM (s : State) (v : Word) : State := { s with xM := v }

/-- `DEADLINE <- d` (R197). -/
def State.withDeadline (s : State) (d : Nat) : State := { s with deadline := d }

/-- `pc <- p`. -/
def State.withPc (s : State) (p : Pc) : State := { s with pc := p }

/-- The next micro-step of the same operation (R22). -/
def Pc.next : Pc → Pc
  | .idle => .idle
  | .running op k => .running op (k + 1)

/-- The interrupt lines recomputed after a step and their levels recorded (R242, log 24). -/
def State.sampled (s : State) : State :=
  { s with lines := s.lines ++ [⟨s.now, s.trace.length, s.irqOut, s.cpIrqOut⟩] }

/-- One micro-step done: its event appended to the trace, `step` advanced (R22, R28). -/
def State.done (s : State) (e : Event) : State :=
  State.sampled { s with trace := s.trace ++ [e], pc := s.pc.next }

/-! ### The environment -/

/-- The environment's choice for the gap before the next micro-step: the scripted one, or a free one. -/
def State.nextEnv (s : State) : EnvStep :=
  match s.envScript with
  | e :: _ => e
  | [] => Config.env s.envTick

/-- HW sets ISTS[IEN_HPD] whenever `hpd_active` becomes true; `was` is its value before (R242). Within IEN_ALL,
as R56 and R117 (e) say. -/
def State.latchHpd (s : State) (was : Bool) : State :=
  if !was && s.hpdActive then
    { s with
      core := { s.core with ists := s.core.ists ||| (bitMask s.cfg.map.ienHpd &&& s.cfg.map.ienAll) } }
  else s

/-- What a held reset does to the CORE file and to PHYCR[4] (R276). -/
def State.resetFilled (s : State) (fill : ResetFill) : State :=
  { s with
    core := s.core.resetFilled s.cfg s.held fill.core
    phycr4 := blend (s.cfg.srstDomain.mask s.held .phycr) s.phycr4 fill.phycr4 }

/-- What HW fires and drives (R56, R242). The CP event line is DESIGN CHOICE a level that HW redraws freely at every
one of its steps: R56 does not speak of it (log 25). -/
def State.hwDriven (s : State) (h : HwStep) : State :=
  { s with core := s.core.driven s.cfg.map h, cpEvent := h.cpEvent }

/-- One step of the hardware agent (R56, R276): the effect of a held reset, then events and driven bits,
then the hot-plug-detect source if a sub-event became active; the interrupt lines follow (R242). -/
def State.hwStep (s : State) (h : HwStep) : State :=
  let filled := match h.resetFill with
    | some f => s.resetFilled f
    | none => s
  ((filled.hwDriven h).latchHpd s.hpdActive).sampled

/-- Time passes and the choice is consumed (R27). -/
def State.timeStep (s : State) (e : EnvStep) : State :=
  { s with now := s.now + e.dt, envScript := s.envScript.tail, envTick := s.envTick + 1 }

/-- Hardware steps one after another, first first. -/
def State.hwSteps (s : State) : List HwStep → State
  | [] => s
  | h :: hs => (s.hwStep h).hwSteps hs

/-- The environment's move before a micro-step (R13): time, and any number of hardware steps. -/
def State.envMove (s : State) : State :=
  let e := s.nextEnv
  (s.timeStep e).hwSteps e.hw

/-! ### Micro-steps -/

/-- `MemRead(CORE+off(r), 4)`, its value given to `keep` (R72): no side effect but the trace. -/
def State.memRead (s : State) (r : CoreReg) (keep : State → Word → State) : State :=
  let s1 := s.envMove
  let v := s1.coreWord r
  (keep s1 v).done (.memRead .core (s1.cfg.map.offsetOf r) v)

/-- `x[T] <- MemRead(CORE+off(r), 4)`. -/
def State.readT (s : State) (r : CoreReg) : State := s.memRead r State.withT

/-- The stored word of a register and the end of the AUX settle window replaced. -/
def State.withStored (s : State) (r : CoreReg) (w : Word) (ready : Nat) : State :=
  { s with core := s.core.set r w, auxReadyAt := ready }

/-- The end of the AUX settle window after a write to `r` (R53 d, R73). -/
def State.settleAfter (s : State) (r : CoreReg) : Nat :=
  if r = .auxCtrl then s.now + s.cfg.tAuxSettle else s.auxReadyAt

/-- The effect of a write on the register file (R73): the word bit by bit, the AUX settle window of a write
to AUX_CTRL (R53 d), and the hot-plug-detect source if unmasking made a sub-event active (R242). -/
def State.storeCore (s : State) (r : CoreReg) (v : Word) : State :=
  (s.withStored r (s.cfg.map.written r (s.coreWord r) v) (s.settleAfter r)).latchHpd s.hpdActive

/-- `MemWrite(CORE+off(r), 4, v)` (R73). -/
def State.memWrite (s : State) (r : CoreReg) (v : Word) : State :=
  let s1 := s.envMove
  (s1.storeCore r v).done (.memWrite .core (s1.cfg.map.offsetOf r) v)

/-- `PHYCR[4] <- v` (R76). -/
def State.storePhycr (s : State) (v : Word) : State := { s with phycr4 := v }

/-- `MemWrite(PHYCR+4, 4, v)` (R76, R191). -/
def State.phycrWrite (s : State) (v : Word) : State :=
  (s.envMove.storePhycr v).done (.memWrite .phycr phycrCal v)

/-- The clock at `t`. -/
def State.withNow (s : State) (t : Nat) : State := { s with now := t }

/-- `wait(d)`: at least `d` microseconds, no upper bound (R27, R84). -/
def State.wait (s : State) (d : Nat) : State :=
  let extra := s.nextEnv.extra
  let s1 := s.envMove
  (s1.withNow (s1.now + d + extra)).done (.wait s1.now (s1.now + d + extra))

/-- `log(id)` (R236). -/
def State.logEvent (s : State) (id : LogId) : State := s.envMove.done (.log id)

/-- `call Secure()`: one event, no effect on this state (R158). -/
def State.callSecure (s : State) : State := s.envMove.done .callSecure

/-- The registers the end of a command writes (R11, R24): `x[R]`, `STATUS`, `pc <- IDLE`. -/
def State.finish (s : State) (st : Status) (v : Word) : State :=
  State.sampled { s with xR := v, status := st, pc := .idle, trace := s.trace ++ [.ret st v] }

/-- `ret(status, value)` (R11). -/
def State.ret (s : State) (st : Status) (v : Word) : State := s.envMove.finish st v

/-- `raise E(info)` for a propagated error (R11, R235): the event, then the end of the command with the
error's status; nothing is saved and nothing undone. -/
def State.raiseError (s : State) (id : LogId) (st : Status) (info : Word) : State :=
  (s.logEvent id).ret st info

/-! ### Idioms -/

/-- `rmw(off, f)`: a read into x[T] and a write of `f x[T]`, with a gap between (R80, R78). -/
def State.rmw (s : State) (r : CoreReg) (f : Word → Word) : State :=
  let s1 := s.readT r
  s1.memWrite r (f s1.xT)

/-- A read-modify-write whose new value is formed in x[T] itself (R173 to R175, R190, R202). -/
def State.rmwT (s : State) (r : CoreReg) (f : Word → Word) : State :=
  let s1 := s.readT r
  let s2 := s1.withT (f s1.xT)
  s2.memWrite r s2.xT

/-- `x[M] <- lane_bits(K, x[A])`, with its warning for a lane count that does not exist (R122). -/
def State.selectLanes (s : State) (k : PerLane BitPos) : State :=
  let s1 := if validLanes s.xA then s else s.logEvent .invalidLanes
  s1.withM (laneBits k s.xA)

/-- A `do` saves the caller's pc and operands and starts the callee with its own (R23). -/
def State.pushFrame (s : State) (op : Op) (a b : Word) : State :=
  { s with retStack := ⟨s.pc, s.xA, s.xB⟩ :: s.retStack, pc := .running op 0, xA := a, xB := b }

/-- The callee's `ret` inside a `do`: the caller's pc and operands again, status and value dropped (R23). -/
def State.popFrame (s : State) : State :=
  match s.retStack with
  | f :: fs => { s with retStack := fs, pc := f.pc.next, xA := f.xA, xB := f.xB }
  | [] => s

/-- `do OP(a, b)` (R11, R23). -/
def State.callOp (s : State) (op : Op) (a b : Word) (body : State → State) : State :=
  (body (s.pushFrame op a b)).popFrame

/-- Acceptance of a command (R101): the operands into x[A] and x[B], `pc <- (op, 0)`. -/
def State.accept (s : State) (op : Op) (a b : Word) : State :=
  { s with xA := a, xB := b, pc := .running op 0 }

/-- An illegal command word or raw offset (R125, R141): the event, then `ret(Refused, 0)`. -/
def State.illegalCommand (s : State) : State := s.raiseError .illegalCommand .refused 0#32

/-- A command on a detached handle: `STATUS <- Refused`, no access (R273, log 15). -/
def State.refuseDetached (s : State) : State := s.ret .refused 0#32

/-- A successful attach (R272): the handle and its configuration; the sequencer and capture registers are
unspecified afterwards (R271, log 8); no access, no operation. -/
def State.attach (s : State) (base : Nat) (cfg : Cfg) : State :=
  let f := Config.freshSeq s.envTick
  { s with
    attached := true, base := base, cfg := cfg, pc := .idle, retStack := []
    xA := f.xA, xB := f.xB, xT := f.xT, xM := f.xM, xR := f.xR, deadline := f.deadline
    status := Status.ofIndex f.statusCode, verstr := f.verstr, version := f.version
    envTick := s.envTick + 1 }

/-- Detach (R273): the hardware keeps its state. -/
def State.detach (s : State) : State := { s with attached := false }

end Sys2Proof.Machine
end

