-- ==== Sys2Proof/Machine/InterruptMask.lean ====
section
/-! DEFINITION. The interrupt mask controller (41_interrupt_controller.md, R150 to R159). -/

namespace Sys2Proof.Machine

/-- The micro-sequence of INTR_EN before its `ret` (R150). -/
def State.intrEnSeq (s : State) : State := s.rmw .ien fun t => t ||| s.xA

/-- The micro-sequence of INTR_DIS before its `ret` (R151). -/
def State.intrDisSeq (s : State) : State := s.rmw .ien fun t => t &&& ~~~s.xA

/-- Stage 2 of GLOBAL_INTR_EN: the erratum re-disables the hot-plug-detect source (R152). -/
def State.erratumStage (s : State) : State :=
  if s.cfg.quirk.hpdErratum then s.callOp .intrDis (bitMask s.cfg.map.ienHpd) 0#32 State.intrDisSeq else s

/-- Stage 5 of GLOBAL_INTR_EN and stage 4 of GLOBAL_INTR_DIS: with content protection, the secure call and
then the RMW of the CP GPIO mask (R152, R153, R158). -/
def State.cpStage (s : State) (f : Word → Word) : State :=
  if s.cfg.cpEnabled then s.callSecure.rmw .cpGpioIntMask f else s

/-- The five stages of GLOBAL_INTR_EN before its `ret`, in the normative order (R152, R159). -/
def State.globalIntrEnSeq (s : State) : State :=
  let m := s.cfg.map
  let s1 := s.callOp .intrEn m.ienAll 0#32 State.intrEnSeq
  let s2 := s1.erratumStage
  let s3 := s2.rmw .wrapIntMask (wrapUnmask m)
  let s4 := s3.rmw .hpdIen fun t => t ||| m.hpdIenAll
  s4.cpStage (cpMask m)

/-- The four stages of GLOBAL_INTR_DIS before its `ret`, in the enumerated order (R153, R159). -/
def State.globalIntrDisSeq (s : State) : State :=
  let m := s.cfg.map
  let s1 := s.callOp .intrDis m.ienAll 0#32 State.intrDisSeq
  let s2 := s1.rmw .wrapIntMask (wrapMask m)
  let s3 := s2.rmw .hpdIen fun t => t &&& ~~~m.hpdIenAll
  s3.cpStage (cpUnmask m)

/-- `INTR_EN a` (R150). -/
def execIntrEn (a b : Word) (s : State) : Host.Outcome State Fault Refusal :=
  .next ((s.accept .intrEn a b).intrEnSeq.ret .ok 0#32)

/-- `INTR_DIS a` (R151). -/
def execIntrDis (a b : Word) (s : State) : Host.Outcome State Fault Refusal :=
  .next ((s.accept .intrDis a b).intrDisSeq.ret .ok 0#32)

/-- `GLOBAL_INTR_EN` (R152). -/
def execGlobalIntrEn (a b : Word) (s : State) : Host.Outcome State Fault Refusal :=
  .next ((s.accept .globalIntrEn a b).globalIntrEnSeq.ret .ok 0#32)

/-- `GLOBAL_INTR_DIS` (R153). -/
def execGlobalIntrDis (a b : Word) (s : State) : Host.Outcome State Fault Refusal :=
  .next ((s.accept .globalIntrDis a b).globalIntrDisSeq.ret .ok 0#32)

/-- `GLOBAL_INTR_CLEAR` (R154): all-ones to both status registers, no read. -/
def execGlobalIntrClear (a b : Word) (s : State) : Host.Outcome State Fault Refusal :=
  let s0 := s.accept .globalIntrClear a b
  .next (((s0.memWrite .ists Word.ones).memWrite .hpdsts Word.ones).ret .ok 0#32)

end Sys2Proof.Machine
end

