-- ==== Sys2Proof/Machine/PhyLane.lean ====
section
/-! DEFINITION. The PHY lane controller (43_phy_lane_controller.md, R190 to R202). -/

namespace Sys2Proof.Machine

/-- The micro-sequence of SET_LANES_POWER before its `ret` (R190): one RMW, and on power-up the calibration
kick (R191). The mask of the per-lane layout stands in x[M]. -/
def State.setLanesPowerSeq (s : State) : State :=
  let s1 := s.readT .phyifCtrl
  let s2 := if s1.cfg.quirk.combinedPwrdown then s1 else s1.withM s1.cfg.map.pwrdownLane.allMask
  let s3 := s2.withT (lanesPowered s2.cfg s2.xA s2.xT)
  let s4 := s3.memWrite .phyifCtrl s3.xT
  if isTrue s4.xA then (s4.phycrWrite 0x211#32).phycrWrite 0#32 else s4

/-- `SET_LANES_POWER a` (R190). -/
def execSetLanesPower (a b : Word) (s : State) : Host.Outcome State Fault Refusal :=
  .next ((s.accept .setLanesPower a b).setLanesPowerSeq.ret .ok 0#32)

/-- `GET_LANES` (R192): `1 << LANES`, unvalidated. -/
def execGetLanes (a b : Word) (s : State) : Host.Outcome State Fault Refusal :=
  let s1 := (s.accept .getLanes a b).readT .phyifCtrl
  .next (s1.ret .ok (oneShl (getField s1.xT s1.cfg.map.lanes)))

/-- `SET_LANES a` (R193): counts 1, 2, 4 are stored as their log2; any other is logged, with no access. -/
def execSetLanes (a b : Word) (s : State) : Host.Outcome State Fault Refusal :=
  let s0 := s.accept .setLanes a b
  match laneCode s0.xA with
  | some n => .next ((s0.rmw .phyifCtrl fun t => putField t s0.cfg.map.lanes n).ret .ok 0#32)
  | none => .next ((s0.logEvent .invalidLaneCount).ret .ok 0#32)

/-- `SET_RATE a` (R194): an operand that is no rate encoding is logged and stored truncated all the same. -/
def execSetRate (a b : Word) (s : State) : Host.Outcome State Fault Refusal :=
  let s0 := s.accept .setRate a b
  let s1 := if validRate s0.cfg.map s0.xA then s0 else s0.logEvent .invalidRate
  .next ((s1.rmw .phyifCtrl fun t => putField t s1.cfg.map.rate s1.xA).ret .ok 0#32)

/-- `GET_RATE` (R195): the raw field. -/
def execGetRate (a b : Word) (s : State) : Host.Outcome State Fault Refusal :=
  let s1 := (s.accept .getRate a b).readT .phyifCtrl
  .next (s1.ret .ok (getField s1.xT s1.cfg.map.rate))

/-- The end of a poll that found a selected busy bit at every read (R197): the last word read is reported. -/
def State.pollTimeout (s : State) : State := s.raiseError .busy .busy (s.xT &&& s.xM)

/-- The poll loop of WAIT_BUSY from its label `top` (R197). The budget runs out before the deadline only if
T_POLL is 0 and time stands still; the last wait then lasts up to the deadline (log 14, R297). -/
def State.pollBusy (top : Pc) : Nat → State → State
  | 0, s => (s.withNow (max s.now s.deadline)).pollTimeout
  | n + 1, s =>
    let s1 := s.readT .phyifCtrl
    if s1.xT &&& s1.xM = 0#32 then s1.ret .ok 0#32
    else
      let s2 := s1.wait s1.cfg.tPoll
      if s2.deadline ≤ s2.now then s2.pollTimeout
      else State.pollBusy top n (s2.withPc top)

/-- WAIT_BUSY outside simulated mode: busy mask, deadline, poll (R196, R197). -/
def State.waitBusySeq (s : State) : State :=
  let s1 := s.selectLanes s.cfg.map.busy
  let s2 := s1.withDeadline (s1.now + s1.cfg.tBusyDeadline)
  State.pollBusy s2.pc (s2.cfg.tBusyDeadline + 1) s2

/-- `WAIT_BUSY a` (R197): in simulated mode no access and no event. -/
def execWaitBusy (a b : Word) (s : State) : Host.Outcome State Fault Refusal :=
  let s0 := s.accept .waitBusy a b
  .next (if s0.cfg.simMode then s0.ret .ok 0#32 else s0.waitBusySeq)

/-- The common course of the two equalization setters (R199, R200): lane check, level clamp, one RMW of the
lane's field. -/
def State.setLevel (s : State) (fields : PerLane Field) : State :=
  if aboveThree s.xA then (s.logEvent .invalidLaneIndex).ret .ok 0#32
  else
    let s1 := if aboveThree s.xB then (s.logEvent .levelClamped).withB (clamp3 s.xB) else s
    (s1.rmw .phyTxEq fun t => putField t (fields.get s1.xA.toNat) s1.xB).ret .ok 0#32

/-- `SET_PRE_EMPHASIS a, b` (R199). -/
def execSetPreEmphasis (a b : Word) (s : State) : Host.Outcome State Fault Refusal :=
  let s0 := s.accept .setPreEmphasis a b
  .next (s0.setLevel s0.cfg.map.preemp)

/-- `SET_VSWING a, b` (R200). -/
def execSetVswing (a b : Word) (s : State) : Host.Outcome State Fault Refusal :=
  let s0 := s.accept .setVswing a b
  .next (s0.setLevel s0.cfg.map.vswing)

/-- `SET_PATTERN a` (R201): truncated to the field, no validation. -/
def execSetPattern (a b : Word) (s : State) : Host.Outcome State Fault Refusal :=
  let s0 := s.accept .setPattern a b
  .next ((s0.rmw .phyifCtrl fun t => putField t s0.cfg.map.tpsSel s0.xA).ret .ok 0#32)

/-- `ENABLE_XMIT a, b` (R202): the selected transmit-enable bits set or cleared in one RMW. -/
def execEnableXmit (a b : Word) (s : State) : Host.Outcome State Fault Refusal :=
  let s0 := s.accept .enableXmit a b
  let s1 := s0.selectLanes s0.cfg.map.xmitEn
  .next ((s1.rmwT .phyifCtrl fun t => if isTrue s1.xB then t ||| s1.xM else t &&& ~~~s1.xM).ret .ok 0#32)

end Sys2Proof.Machine
end

