-- ==== Sys2Proof/Machine/RateTranslator.lean ====
section
/-! DEFINITION. The rate/bandwidth translator (44_rate_translator.md, R220, R221): no register access. -/

namespace Sys2Proof.Machine

/-- The end of a translation (R220, R221): the value found, or InvalidArgument with the sentinel. -/
def State.translated (s : State) (found : Option Word) : State :=
  match found with
  | some v => s.ret .ok v
  | none => s.raiseError .invalidArgument .invalidArgument s.cfg.map.sentinel

/-- `RATE_TO_BW a` (R220). -/
def execRateToBw (a b : Word) (s : State) : Host.Outcome State Fault Refusal :=
  let s0 := s.accept .rateToBw a b
  .next (s0.translated (bwOfRate s0.cfg.map s0.xA))

/-- `BW_TO_RATE a` (R221). -/
def execBwToRate (a b : Word) (s : State) : Host.Outcome State Fault Refusal :=
  let s0 := s.accept .bwToRate a b
  .next (s0.translated (rateOfBw s0.cfg.map s0.xA))

end Sys2Proof.Machine
end

