-- ==== Sys2Proof/Machine/RegisterAccess.lean ====
section
/-! DEFINITION. The register access operations (40_register_access.md, R141, R142). -/

namespace Sys2Proof.Machine

/-- `REG_READ a` (R141): one read of the register the offset names, returned; any other offset is refused. -/
def execRegRead (a b : Word) (s : State) : Host.Outcome State Fault Refusal :=
  let s0 := s.accept .regRead a b
  match s0.cfg.regAt s0.xA with
  | some r =>
    let s1 := s0.readT r
    .next (s1.ret .ok s1.xT)
  | none => .next s0.illegalCommand

/-- `REG_WRITE a, b` (R142): one write with all its side effects; any other offset is refused. -/
def execRegWrite (a b : Word) (s : State) : Host.Outcome State Fault Refusal :=
  let s0 := s.accept .regWrite a b
  match s0.cfg.regAt s0.xA with
  | some r => .next ((s0.memWrite r s0.xB).ret .ok 0#32)
  | none => .next s0.illegalCommand

end Sys2Proof.Machine
end

