-- ==== Sys2Proof/Machine/ResetSeq.lean ====
section
/-! DEFINITION. The reset sequencer (42_reset_sequencer.md, R170 to R178). -/

namespace Sys2Proof.Machine

/-- SOFT_RESET up to and with the write that asserts (R170): the selector masked into x[M], the first RMW. -/
def State.srstAssert (s : State) : State :=
  let s1 := s.withM (s.xA &&& s.cfg.map.srstValid)
  s1.rmw .srstCtrl fun t => t ||| s1.xM

/-- The second RMW of SOFT_RESET, with a fresh read (R170). -/
def State.srstDeassert (s : State) : State := s.rmw .srstCtrl fun t => t &&& ~~~s.xM

/-- The micro-sequence of SOFT_RESET before its `ret` (R170): assert, hold, de-assert. -/
def State.softResetSeq (s : State) : State :=
  let s1 := s.srstAssert
  (s1.wait s1.cfg.tSrstHoldMin).srstDeassert

/-- SOFT_RESET_ALL before its `ret` (R171). -/
def State.softResetAllSeq (s : State) : State :=
  s.callOp .softReset s.cfg.map.srstValid 0#32 State.softResetSeq

/-- PHY_SOFT_RESET before its `ret` (R172). -/
def State.phySoftResetSeq (s : State) : State :=
  s.callOp .softReset s.cfg.map.srstPhy 0#32 State.softResetSeq

/-- TYPEC_ACK before its `ret` (R173). -/
def State.typecAckSeq (s : State) : State := s.rmwT .typeCCtrl (typecAcked s.cfg.map)

/-- AUX_RESET before its `ret` (R174): the RMW, then the settle wait. -/
def State.auxResetSeq (s : State) : State :=
  let s1 := s.rmwT .auxCtrl (auxProgrammed s.cfg.map s.xA)
  s1.wait s1.cfg.tAuxSettle

/-- `phy_width_init` (R175). -/
def State.phyWidthInit (s : State) : State := s.rmwT .phyifCtrl (widthChosen s.cfg)

/-- Characters 0 to 4 captured from the first version word (R176 stage 5). -/
def State.captureNumber (s : State) (v : Word) : State := { s with verstr := verstrNumber s.verstr v }

/-- Characters 5 to 9 and the raw word captured from the second version word (R176 stage 6). -/
def State.captureType (s : State) (v : Word) : State :=
  { s with verstr := verstrType s.verstr v, version := v }

/-- The seven stages of CORE_INIT before its `ret` (R176). -/
def State.coreInitSeq (s : State) : State :=
  let s1 := s.callOp .softResetAll 0#32 0#32 State.softResetAllSeq
  let s2 := s1.callOp .typecAck 0#32 0#32 State.typecAckSeq
  let s3 := s2.callOp .setLanesPower 0#32 0#32 State.setLanesPowerSeq
  let s4 := s3.memWrite .cctl 0#32
  let s5 := s4.memRead .verNumber State.captureNumber
  let s6 := s5.memRead .verType State.captureType
  s6.phyWidthInit

/-- CORE_DEINIT before its `ret` (R178). -/
def State.coreDeinitSeq (s : State) : State :=
  let s1 := s.callOp .globalIntrDis 0#32 0#32 State.globalIntrDisSeq
  s1.callOp .softResetAll 0#32 0#32 State.softResetAllSeq

/-- `SOFT_RESET a` (R170). -/
def execSoftReset (a b : Word) (s : State) : Host.Outcome State Fault Refusal :=
  .next ((s.accept .softReset a b).softResetSeq.ret .ok 0#32)

/-- `SOFT_RESET_ALL` (R171). -/
def execSoftResetAll (a b : Word) (s : State) : Host.Outcome State Fault Refusal :=
  .next ((s.accept .softResetAll a b).softResetAllSeq.ret .ok 0#32)

/-- `PHY_SOFT_RESET` (R172). -/
def execPhySoftReset (a b : Word) (s : State) : Host.Outcome State Fault Refusal :=
  .next ((s.accept .phySoftReset a b).phySoftResetSeq.ret .ok 0#32)

/-- `TYPEC_ACK` (R173). -/
def execTypecAck (a b : Word) (s : State) : Host.Outcome State Fault Refusal :=
  .next ((s.accept .typecAck a b).typecAckSeq.ret .ok 0#32)

/-- `AUX_RESET a` (R174). -/
def execAuxReset (a b : Word) (s : State) : Host.Outcome State Fault Refusal :=
  .next ((s.accept .auxReset a b).auxResetSeq.ret .ok 0#32)

/-- `CORE_INIT` (R176). -/
def execCoreInit (a b : Word) (s : State) : Host.Outcome State Fault Refusal :=
  .next ((s.accept .coreInit a b).coreInitSeq.ret .ok 0#32)

/-- `CHECK_CORE_ID` (R177): the identity word compared whole, returned in both outcomes. -/
def execCheckCoreId (a b : Word) (s : State) : Host.Outcome State Fault Refusal :=
  let s1 := (s.accept .checkCoreId a b).readT .id
  .next (if s1.xT = s1.cfg.map.idExpected then s1.ret .ok s1.xT
    else s1.raiseError .identityMismatch .identityMismatch s1.xT)

/-- `CORE_DEINIT` (R178). -/
def execCoreDeinit (a b : Word) (s : State) : Host.Outcome State Fault Refusal :=
  .next ((s.accept .coreDeinit a b).coreDeinitSeq.ret .ok 0#32)

end Sys2Proof.Machine
end

