-- ==== Sys2Proof/Machine/Dispatch.lean ====
section
/-! DEFINITION. The meaning of every operation, one arm per constructor (R102). -/

namespace Sys2Proof.Machine

def exec (i : Instr) (s : State) : Host.Outcome State Fault Refusal :=
  match i with
  | .regRead a b => Sys2Proof.Machine.execRegRead a b s
  | .regWrite a b => Sys2Proof.Machine.execRegWrite a b s
  | .intrEn a b => Sys2Proof.Machine.execIntrEn a b s
  | .intrDis a b => Sys2Proof.Machine.execIntrDis a b s
  | .globalIntrEn a b => Sys2Proof.Machine.execGlobalIntrEn a b s
  | .globalIntrDis a b => Sys2Proof.Machine.execGlobalIntrDis a b s
  | .globalIntrClear a b => Sys2Proof.Machine.execGlobalIntrClear a b s
  | .softReset a b => Sys2Proof.Machine.execSoftReset a b s
  | .softResetAll a b => Sys2Proof.Machine.execSoftResetAll a b s
  | .phySoftReset a b => Sys2Proof.Machine.execPhySoftReset a b s
  | .typecAck a b => Sys2Proof.Machine.execTypecAck a b s
  | .auxReset a b => Sys2Proof.Machine.execAuxReset a b s
  | .coreInit a b => Sys2Proof.Machine.execCoreInit a b s
  | .checkCoreId a b => Sys2Proof.Machine.execCheckCoreId a b s
  | .coreDeinit a b => Sys2Proof.Machine.execCoreDeinit a b s
  | .setLanesPower a b => Sys2Proof.Machine.execSetLanesPower a b s
  | .getLanes a b => Sys2Proof.Machine.execGetLanes a b s
  | .setLanes a b => Sys2Proof.Machine.execSetLanes a b s
  | .setRate a b => Sys2Proof.Machine.execSetRate a b s
  | .getRate a b => Sys2Proof.Machine.execGetRate a b s
  | .waitBusy a b => Sys2Proof.Machine.execWaitBusy a b s
  | .setPreEmphasis a b => Sys2Proof.Machine.execSetPreEmphasis a b s
  | .setVswing a b => Sys2Proof.Machine.execSetVswing a b s
  | .setPattern a b => Sys2Proof.Machine.execSetPattern a b s
  | .enableXmit a b => Sys2Proof.Machine.execEnableXmit a b s
  | .rateToBw a b => Sys2Proof.Machine.execRateToBw a b s
  | .bwToRate a b => Sys2Proof.Machine.execBwToRate a b s

end Sys2Proof.Machine
end

