-- ==== Sys2Proof/WellFormed.lean ====
section
/-! DEFINITION. Well-formedness. A command is well formed whatever its operands (R125); what can be ill
formed is a register map: the conditions of R117, one Bool each. -/

namespace Sys2Proof

/-- Every operand word is admissible: inside an operation out-of-range operands are never illegal (R125). -/
def Instr.wf (_ : Instr) : Bool := true

/-- The masks of a list are pairwise disjoint. -/
def disjointMasks (ms : List Word) : Bool := decide (ms.Pairwise fun x y => x &&& y = 0#32)

/-- The items of the four lanes. -/
def PerLane.toList {α : Type} (p : PerLane α) : List α := [p.lane0, p.lane1, p.lane2, p.lane3]

/-- A field has at least one bit and lies in its 32-bit register (R12, R29; log 16). -/
def Field.fits (f : Field) : Bool := decide (1 ≤ f.width) && decide (f.shift + f.width ≤ 32)

/-- Every field of the map is a field of a 32-bit register (log 16). -/
def RegMap.wfFields (m : RegMap) : Bool :=
  m.tpsSel.fits && m.rate.fits && m.lanes.fits && m.pwrdownComb.fits && m.auxVodTune.fits
    && m.preemp.toList.all Field.fits && m.vswing.toList.all Field.fits

/-- R117 (a): all CORE offsets are distinct multiples of 4. -/
def RegMap.wfOffsets (m : RegMap) : Bool :=
  decide ((CoreReg.all.map m.offsetOf).Nodup)
    && (CoreReg.all.map m.offsetOf).all fun o => o.toNat % 4 == 0

/-- The PHYIF_CTRL masks other than power-down. -/
def RegMap.phyifMasks (m : RegMap) : List Word :=
  [m.tpsSel.mask, m.rate.mask, m.lanes.mask, bitMask m.width]
    ++ m.xmitEn.toList.map bitMask ++ m.busy.toList.map bitMask

/-- R117 (b): the PHYIF_CTRL fields are pairwise disjoint, in either power-down layout. -/
def RegMap.wfPhyif (m : RegMap) : Bool :=
  disjointMasks (m.pwrdownComb.mask :: m.phyifMasks)
    && disjointMasks (m.pwrdownLane.toList.map bitMask ++ m.phyifMasks)

/-- R117 (c): the stated field widths. -/
def RegMap.wfWidths (m : RegMap) : Bool :=
  decide (2 ≤ m.rate.width) && decide (2 ≤ m.lanes.width)
    && m.preemp.toList.all (fun f => f.width == 2) && m.vswing.toList.all (fun f => f.width == 2)

/-- R117 (d): the eight equalization fields are pairwise disjoint. -/
def RegMap.wfTxEq (m : RegMap) : Bool :=
  disjointMasks (m.preemp.toList.map Field.mask ++ m.vswing.toList.map Field.mask)

/-- R117 (e): the hot-plug-detect source lies inside all sources. -/
def RegMap.wfIen (m : RegMap) : Bool := bitMask m.ienHpd &&& m.ienAll == bitMask m.ienHpd

/-- R117 (f): the three HPDSTS event bits and the three HPD_IEN bits are distinct. -/
def RegMap.wfHpd (m : RegMap) : Bool :=
  decide ([m.hpdIrq, m.hpdHotPlug, m.hpdHotUnplug].Nodup)
    && decide ([m.hpdIenIrq, m.hpdIenHotPlug, m.hpdIenHotUnplug].Nodup)

/-- R117 (g): the two Type-C bits are distinct. -/
def RegMap.wfTypec (m : RegMap) : Bool := decide (m.typecDisableAck ≠ m.typecDisableStatus)

/-- R117 (h): the AUX enable bit is outside the tuning field, whose calibrated value fits. -/
def RegMap.wfAux (m : RegMap) : Bool :=
  (bitMask m.auxBlockEn &&& m.auxVodTune.mask == 0#32)
    && decide (m.auxVodTuneCal.toNat < 2 ^ m.auxVodTune.width)

/-- R117 (i): the combined power-down value is non-zero and fits its field. -/
def RegMap.wfPwrdown (m : RegMap) : Bool :=
  decide (m.pwrdownCombDown ≠ 0#32) && decide (m.pwrdownCombDown.toNat < 2 ^ m.pwrdownComb.width)

/-- R117 (j): the wrapper gate has a bit. -/
def RegMap.wfWrap (m : RegMap) : Bool := decide (m.wrapIntBits ≠ 0#32)

/-- The four rate encodings (R119). -/
def RegMap.rates (m : RegMap) : List Word := [m.rbr, m.hbr, m.hbr2, m.hbr3]

/-- The four bandwidth constants (R124). -/
def RegMap.bandwidths (m : RegMap) : List Word := [m.bwRbr, m.bwHbr, m.bwHbr2, m.bwHbr3]

/-- R117 (k): the four rates are distinct and fit the field; the four bandwidths are distinct and positive. -/
def RegMap.wfRates (m : RegMap) : Bool :=
  decide (m.rates.Nodup) && m.rates.all (fun r => decide (r.toNat < 2 ^ m.rate.width))
    && decide (m.bandwidths.Nodup) && m.bandwidths.all (fun w => decide (0 < w.toInt))

/-- The sentinel is negative as a signed word (R124; log 16). -/
def RegMap.wfSentinel (m : RegMap) : Bool := decide (m.sentinel.toInt < 0)

/-- A well-formed register map (R117). -/
def RegMap.wf (m : RegMap) : Bool :=
  m.wfFields && m.wfOffsets && m.wfPhyif && m.wfWidths && m.wfTxEq && m.wfIen && m.wfHpd && m.wfTypec
    && m.wfAux && m.wfPwrdown && m.wfWrap && m.wfRates && m.wfSentinel

/-- A well-formed configuration is one whose map is (R117). -/
def Cfg.wf (c : Cfg) : Bool := c.map.wf

end Sys2Proof
end

