-- ==== Sys2Proof/Machine/HostPort.lean ====
section
/-! DEFINITION. What a host action does (R13): attach (R272), detach (R273), command (R101, R125). -/

namespace Sys2Proof.Machine

/-- Attach (R272): only when idle and detached (U16); fails when the window is unreadable (R89, U18); of an
ill-formed map no rule speaks (R117, log 16). -/
def State.hostAttach (s : State) (base : Nat) (cfg : Cfg) (readable : Bool) :
    Host.Outcome State Fault Refusal :=
  if s.pc ≠ .idle then .refused .attachInFlight
  else if s.attached then .refused .doubleAttach
  else if !readable then .fault .windowUnmapped
  else if !cfg.wf then .refused .illFormedConfig
  else .next (s.attach base cfg)

/-- Detach (R273): only when idle. -/
def State.hostDetach (s : State) : Host.Outcome State Fault Refusal :=
  if s.pc ≠ .idle then .refused .detachInFlight else .next s.detach

/-- A presented command word (R101): not while one runs (R14); refused on a detached handle before decode
(R234); an unknown op is illegal (R125); else the decoded operation runs. -/
def State.hostCommand (s : State) (w : CmdWord) : Host.Outcome State Fault Refusal :=
  if s.pc ≠ .idle then .refused .commandInFlight
  else if !s.attached then .next s.refuseDetached
  else
    match decode w with
    | .ok i => exec i s
    | .error _ => .next s.illegalCommand

/-- One host action. -/
def State.hostAct (s : State) (h : HostAction) : Host.Outcome State Fault Refusal :=
  match h with
  | .attach base cfg readable => s.hostAttach base cfg readable
  | .detach => s.hostDetach
  | .command w => s.hostCommand w

/-- The state with the host actions left after the first. -/
def State.withHost (s : State) (rest : List HostAction) : State := { s with host := rest }

end Sys2Proof.Machine
end

