-- ==== Sys2Proof/Machine/Step.lean ====
section
/-! DEFINITION. One step of the machine: the next host action, or, with none, a move of the environment. -/

namespace Sys2Proof.Machine

/-- One step: the head of `host` is performed, a command from acceptance to its `ret`; with no host action
time passes and the hardware agent may act (R13, log 4, log 5). -/
def step (s : State) : Host.Outcome State Fault Refusal :=
  match s.host with
  | [] => .next s.envMove
  | h :: rest => (s.withHost rest).hostAct h

/-- The state in which the command word that the table numbers `w` is the next host action of an attached,
idle block (log 4). -/
def State.withFetchWord (s : State) (nbits w : Nat) : State :=
  { s with host := .command (tableWord nbits w) :: s.host, attached := true, pc := .idle }

end Sys2Proof.Machine
end

