-- ==== Sys2Proof/Safety.lean ====
section
/-! DEFINITION. The terms claims are stated in: a step that completes, the state between commands, the
invariant of runs, and the sub-lists of a trace. -/

namespace Sys2Proof.Machine

/-- The outcome is a next state. -/
def completes (o : Host.Outcome State Fault Refusal) : Bool :=
  match o with
  | .next _ => true
  | _ => false

/-- Between commands: idle, with no saved caller (R22, R23, R297). -/
def State.settled (s : State) : Prop := s.pc = .idle ∧ s.retStack = []

/-- The invariant of runs: settled between steps, and an attached handle has a well-formed map (R117). -/
def State.Inv (s : State) : Prop := s.settled ∧ (s.attached = true → s.cfg.wf = true)

/-- No valid reset bit is held, so HW may not change an RW bit (R56, R276). -/
def State.noReset (s : State) : Prop := s.held = 0#32

/-- The bits of a register that HW may not change without a reset: neither RO-hw nor W1C (R29, R56). -/
def rwBits (m : RegMap) (r : CoreReg) : Word := ~~~(m.roHwMask r ||| m.w1cMask r)

/-- The bits of a register that a write stores (R73). -/
def storedBits (m : RegMap) (r : CoreReg) : Word := ~~~(m.deafMask r ||| m.w1cMask r)

/-- What HW alone may do to a register's word without a reset (R56): keep every bit that is neither RO-hw nor
W1C, and clear no W1C bit. -/
def KeptWord (m : RegMap) (r : CoreReg) (old new : Word) : Prop :=
  new &&& rwBits m r = old &&& rwBits m r ∧ old &&& m.w1cMask r &&& ~~~new = 0#32

/-- Register `r` of `t` is that of `s` but for what HW may do on its own. -/
def RegKept (s t : State) (r : CoreReg) : Prop := KeptWord s.cfg.map r (s.coreWord r) (t.coreWord r)

/-- Every CORE register but those listed is kept. -/
def RegsKept (s t : State) (except : List CoreReg) : Prop := ∀ r, r ∉ except → RegKept s t r

/-- What no command changes, whatever it is: the handle, the host's queue, the return stack (R20, R26). -/
def HandleKept (s t : State) : Prop :=
  t.attached = s.attached ∧ t.base = s.base ∧ t.cfg = s.cfg ∧ t.host = s.host ∧ t.retStack = s.retStack

/-- The captured identity is unchanged (R25). -/
def CaptureKept (s t : State) : Prop := t.verstr = s.verstr ∧ t.version = s.version

/-- What the end of every command leaves: the handle, idle, the operands in x[A] and x[B], time not gone back
(R22, R27, R101). -/
def CommandFrame (s t : State) (a b : Word) : Prop :=
  HandleKept s t ∧ t.pc = .idle ∧ t.xA = a ∧ t.xB = b ∧ s.now ≤ t.now

/-- What only WAIT_BUSY, AUX_CTRL writes and CORE_INIT change (R21, R25, R53). -/
def PassiveKept (s t : State) : Prop :=
  CaptureKept s t ∧ t.deadline = s.deadline ∧ t.auxReadyAt = s.auxReadyAt

/-- Every CORE register but those listed, and PHYCR[4], are kept. -/
def FileKept (s t : State) (except : List CoreReg) : Prop := RegsKept s t except ∧ t.phycr4 = s.phycr4

/-- The trace entry of a read of a CORE register (R28). -/
def readEv (s : State) (r : CoreReg) (v : Word) : Event := .memRead .core (s.cfg.map.offsetOf r) v

/-- The trace entry of a write of a CORE register (R28). -/
def writeEv (s : State) (r : CoreReg) (v : Word) : Event := .memWrite .core (s.cfg.map.offsetOf r) v

/-- PHYIF_CTRL without its RO-hw BUSY bits (R40). -/
def outsideBusy (s : State) (v : Word) : Word := v &&& ~~~s.cfg.map.busy.allMask

/-- The next `n` environment gaps hold no hardware step. -/
def HwQuiet (n : Nat) (s : State) : Prop :=
  n ≤ s.envScript.length ∧ ∀ e ∈ s.envScript.take n, e.hw = []

/-- The register writes of a trace, in order, with their space. -/
def writesOf (tr : List Event) : List (Space × Word × Word) :=
  tr.filterMap fun e => match e with
    | .memWrite sp off v => some (sp, off, v)
    | _ => none

/-- The log events of a trace, in order. -/
def logsOf (tr : List Event) : List LogId :=
  tr.filterMap fun e => match e with
    | .log id => some id
    | _ => none

/-- The register reads of a trace, in order, with their space. -/
def readsOf (tr : List Event) : List (Space × Word × Word) :=
  tr.filterMap fun e => match e with
    | .memRead sp off v => some (sp, off, v)
    | _ => none

end Sys2Proof.Machine
end

