-- ==== Sys2Proof/Certificates/Slice0/Obligations.lean ====
section
/-! DEFINITION. The statements for the provers. Each names the rule of spec/ it formalises. Throughout, `s` is any
state, whatever the hardware and time agents have decided to do next; `s.noReset` says that no valid reset bit is
held, without which HW may change any covered bit (R276). -/

open Sys2Proof Sys2Proof.Machine

/-! ### Encoding -/

/-- R100, R102: every command word written from the encoding decodes to its command, every operand at every value. -/
def Obligations.DecodeOfEncode : Prop := ∀ i : Instr, decode (encode i) = .ok i

/-- R100, R102: the other direction; a decoded word is the encoding of what it decodes to, no bit dropped. -/
def Obligations.EncodeOfDecode : Prop := ∀ (w : CmdWord) (i : Instr), decode w = .ok i → encode i = w

/-- R102, R125: exactly the words whose op is none of the 27 are refused, by name. -/
def Obligations.DecodeRefusesExactlyUnknownOps : Prop :=
  ∀ w : CmdWord, (∃ e, decode w = .error e) ↔
    w.op.toNat ∉ [0x00, 0x01, 0x10, 0x11, 0x12, 0x13, 0x14, 0x20, 0x21, 0x22, 0x23, 0x24, 0x25, 0x26, 0x27,
      0x30, 0x31, 0x32, 0x33, 0x34, 0x35, 0x36, 0x37, 0x38, 0x39, 0x40, 0x41]

/-- 95_test_vectors.md: words of the spec, one per family, decode to their commands (R100, R102). -/
def Obligations.SpecWordsDecode : Prop :=
  decode 0x0000000A0400000000#72 = .ok (.regRead 0xA04#32 0#32)
    ∧ decode 0x100000008100000000#72 = .ok (.intrEn 0x81#32 0#32)
    ∧ decode 0x20FFFFFFFF00000000#72 = .ok (.softReset 0xFFFFFFFF#32 0#32)
    ∧ decode 0x31DEADBEEF12345678#72 = .ok (.getLanes 0xDEADBEEF#32 0x12345678#32)
    ∧ decode 0x360000000200000001#72 = .ok (.setPreEmphasis 2#32 1#32)
    ∧ decode 0x400000000200000000#72 = .ok (.rateToBw 2#32 0#32)

/-! ### The step -/

/-- R101: at an attached, idle block a presented command word that decodes runs its command; the host's queue
moves on by one. -/
def Obligations.StepRunsDecodedCommand : Prop :=
  ∀ (s : State) (w : CmdWord) (rest : List HostAction) (i : Instr),
    s.host = .command w :: rest → s.attached = true → s.pc = .idle → decode w = .ok i →
      step s = exec i { s with host := rest }

/-- R125: an unknown op performs no access, emits the event and finishes refused; the machine goes on. -/
def Obligations.UnknownOpIsRefusedAndGoesOn : Prop :=
  ∀ (s : State) (w : CmdWord) (rest : List HostAction) (e : DecodeError),
    s.host = .command w :: rest → s.attached = true → s.pc = .idle → decode w = .error e →
      ∃ t, step s = .next t
        ∧ t.trace = s.trace ++ [.log .illegalCommand, .ret .refused 0#32]
        ∧ t.status = .refused ∧ t.xR = 0#32 ∧ t.pc = .idle ∧ t.host = rest
        ∧ t.xA = s.xA ∧ t.xB = s.xB ∧ t.cfg = s.cfg ∧ t.attached = true ∧ PassiveKept s t
        ∧ (s.noReset → FileKept s t [])

/-- R273, R234 (1): a command on a detached handle is refused before decode, with no access. That the end of the
command also writes 0 to x[R] is the model's choice (log 15). -/
def Obligations.DetachedHandleRefusesCommands : Prop :=
  ∀ (s : State) (w : CmdWord) (rest : List HostAction),
    s.host = .command w :: rest → s.attached = false → s.pc = .idle →
      ∃ t, step s = .next t ∧ t.status = .refused ∧ t.attached = false ∧ t.pc = .idle ∧ t.host = rest
        ∧ t.xA = s.xA ∧ t.xB = s.xB ∧ t.cfg = s.cfg ∧ PassiveKept s t
        ∧ (∃ new, t.trace = s.trace ++ new ∧ readsOf new = [] ∧ writesOf new = [])
        ∧ (s.noReset → FileKept s t [])

/-- R14, R273, 93_implementation_defined.md U13, U16: what the model gives no step, and the fatal attach of U18. That an
attach while a command runs and an attach of an ill-formed map also have no step is the model's choice (log 16, log 17). -/
def Obligations.HostDutiesAreStops : Prop :=
  ∀ (s : State) (rest : List HostAction),
    (∀ w, s.host = .command w :: rest → s.pc ≠ .idle → step s = .refused .commandInFlight)
    ∧ (s.host = .detach :: rest → s.pc ≠ .idle → step s = .refused .detachInFlight)
    ∧ (∀ b c rd, s.host = .attach b c rd :: rest → s.pc = .idle → s.attached = true →
        step s = .refused .doubleAttach)
    ∧ (∀ b c rd, s.host = .attach b c rd :: rest → s.pc ≠ .idle → step s = .refused .attachInFlight)
    ∧ (∀ b c, s.host = .attach b c true :: rest → s.pc = .idle → s.attached = false → c.wf = false →
        step s = .refused .illFormedConfig)
    ∧ (∀ b c, s.host = .attach b c false :: rest → s.pc = .idle → s.attached = false →
        step s = .fault .windowUnmapped)

/-- R272, R271: an attach with a readable window and a well-formed map binds the handle and makes the block idle; it
performs no access and changes nothing of the hardware, nor of what its interrupt lines have shown. -/
def Obligations.AttachBindsHandleOnly : Prop :=
  ∀ (s : State) (b : Nat) (c : Cfg) (rest : List HostAction),
    s.host = .attach b c true :: rest → s.pc = .idle → s.attached = false → c.wf = true →
      ∃ t, step s = .next t ∧ t.attached = true ∧ t.base = b ∧ t.cfg = c ∧ t.pc = .idle ∧ t.retStack = []
        ∧ t.core = s.core ∧ t.phycr4 = s.phycr4 ∧ t.auxReadyAt = s.auxReadyAt ∧ t.cpEvent = s.cpEvent
        ∧ t.now = s.now ∧ t.trace = s.trace ∧ t.lines = s.lines ∧ t.host = rest

/-- R273: detach at idle clears `attached` and nothing else; the hardware is not reset. -/
def Obligations.DetachKeepsHardware : Prop :=
  ∀ (s : State) (rest : List HostAction),
    s.host = .detach :: rest → s.pc = .idle →
      step s = .next { s with attached := false, host := rest }

/-- R56, R27: with no host action the hardware and time agents move: HW changes no RW bit and clears no W1C bit without a
reset, never changes SRST_CTRL, the handle or any sequencer or capture register, and time does not go back. -/
def Obligations.IdleStepIsAFramedHwStep : Prop :=
  ∀ s : State, s.host = [] →
    ∃ t, step s = .next t
      ∧ t.trace = s.trace ∧ HandleKept s t ∧ PassiveKept s t ∧ t.pc = s.pc ∧ t.status = s.status
      ∧ t.xA = s.xA ∧ t.xB = s.xB ∧ t.xT = s.xT ∧ t.xM = s.xM ∧ t.xR = s.xR
      ∧ s.now ≤ t.now ∧ t.core.srstCtrl = s.core.srstCtrl
      ∧ (s.noReset → FileKept s t [])

/-! ### The hardware agent -/

/-- R276, R277: what a step of HW leaves while a reset is held: SRST_CTRL, the identity registers, and every RW bit that
no held bit's domain covers. -/
def Obligations.HeldResetStaysInItsDomain : Prop :=
  ∀ (s : State) (h : HwStep),
    (s.hwStep h).core.srstCtrl = s.core.srstCtrl
    ∧ (∀ r, r = .verNumber ∨ r = .verType ∨ r = .id → (s.hwStep h).coreWord r = s.coreWord r)
    ∧ (∀ r, (s.hwStep h).coreWord r &&& (rwBits s.cfg.map r &&& ~~~s.cfg.fillMask s.held r)
        = s.coreWord r &&& (rwBits s.cfg.map r &&& ~~~s.cfg.fillMask s.held r))

/-- R242: HW sets the top-level hot-plug-detect status whenever a sub-event becomes active, by an event or by a write that
unmasks it. That each sub-event pairs with the enable bit of its own name, and that the bit is set in the same micro-step, is
the model's reading (log 12). -/
def Obligations.HotPlugEventLatchesTopLevel : Prop :=
  ∀ s : State, s.cfg.wf = true → s.hpdActive = false →
    (∀ h : HwStep, (s.hwStep h).hpdActive = true → bitAt (s.hwStep h).core.ists s.cfg.map.ienHpd = true)
    ∧ (∀ (r : CoreReg) (v : Word), (s.storeCore r v).hpdActive = true →
        bitAt (s.storeCore r v).core.ists s.cfg.map.ienHpd = true)

/-- R73: a write bit by bit. RO bits keep; W1C bits clear where the word is 1; the other bits take the word, but for the
reserved bits of ISTS, which keep (the model's reading, log 9). That every non-event bit of HPDSTS is RO-hw and so keeps is the
model's reading too (log 10). Every other register is kept but for what HW may do. -/
def Obligations.WriteActsBitByBit : Prop :=
  ∀ (s : State) (r : CoreReg) (v : Word),
    (∀ i : BitPos,
      let old := bitAt (s.coreWord r) i
      let new := bitAt ((s.storeCore r v).coreWord r) i
      if r = .verNumber ∨ r = .verType ∨ r = .id then new = old
      else if bitAt (s.cfg.map.roHwMask r) i then new = old
      else if bitAt (s.cfg.map.w1cMask r) i then new = (old && !bitAt v i)
      else if r = .ists then new = old
      else new = bitAt v i)
    ∧ (∀ q, q ≠ r → RegKept s (s.storeCore r v) q)

/-! ### Register access -/

/-- R141: REG_READ of a register's offset reads it once and returns the word. -/
def Obligations.RegReadReturnsRegister : Prop :=
  ∀ (s : State) (a b : Word) (r : CoreReg), s.cfg.regAt a = some r →
    ∃ t v, exec (.regRead a b) s = .next t
      ∧ t.trace = s.trace ++ [.memRead .core a v, .ret .ok v]
      ∧ t.status = .ok ∧ t.xR = v ∧ t.xT = v ∧ t.xM = s.xM
      ∧ CommandFrame s t a b ∧ PassiveKept s t
      ∧ (s.noReset → KeptWord s.cfg.map r (s.coreWord r) v ∧ FileKept s t [])

/-- R142, R73: REG_WRITE of a register's offset writes it once and succeeds. Its stored bits then hold the operand's; its
W1C bits written 0 stay set; no other register changes, unless the write itself asserts a reset. -/
def Obligations.RegWriteStoresOperand : Prop :=
  ∀ (s : State) (a b : Word) (r : CoreReg), s.cfg.regAt a = some r →
    ∃ t, exec (.regWrite a b) s = .next t
      ∧ t.trace = s.trace ++ [.memWrite .core a b, .ret .ok 0#32]
      ∧ t.status = .ok ∧ t.xR = 0#32 ∧ t.xT = s.xT ∧ t.xM = s.xM
      ∧ CommandFrame s t a b ∧ CaptureKept s t ∧ t.deadline = s.deadline
      ∧ (if r = .auxCtrl then s.now + s.cfg.tAuxSettle ≤ t.auxReadyAt ∧ t.auxReadyAt ≤ t.now + s.cfg.tAuxSettle
         else t.auxReadyAt = s.auxReadyAt)
      ∧ (r = .srstCtrl → t.core.srstCtrl = b)
      ∧ (s.noReset → (r = .srstCtrl → b &&& s.cfg.map.srstValid = 0#32) →
          FileKept s t [r]
          ∧ t.coreWord r &&& storedBits s.cfg.map r = b &&& storedBits s.cfg.map r
          ∧ s.coreWord r &&& s.cfg.map.w1cMask r &&& ~~~b &&& ~~~t.coreWord r = 0#32)

/-- R141, R142, R75: a raw offset that names no register is refused with no access. That the offset of CP_GPIO_INT_MASK names
none on a handle without content protection (R51) is the model's reading (log 11). -/
def Obligations.RawAccessOffTheMapIsRefused : Prop :=
  ∀ (s : State) (a b : Word) (i : Instr), i = .regRead a b ∨ i = .regWrite a b → s.cfg.regAt a = none →
    ∃ t, exec i s = .next t
      ∧ t.trace = s.trace ++ [.log .illegalCommand, .ret .refused 0#32]
      ∧ t.status = .refused ∧ t.xR = 0#32 ∧ t.xT = s.xT ∧ t.xM = s.xM
      ∧ CommandFrame s t a b ∧ PassiveKept s t
      ∧ (s.noReset → FileKept s t [])

/-! ### Interrupt mask controller -/

/-- R150: INTR_EN ORs its operand, unmasked, into IEN by one read and one write, always OK. -/
def Obligations.IntrEnOrsIntoIen : Prop :=
  ∀ (s : State) (a b : Word),
    ∃ t v, exec (.intrEn a b) s = .next t
      ∧ t.trace = s.trace ++ [readEv s .ien v, writeEv s .ien (v ||| a), .ret .ok 0#32]
      ∧ t.status = .ok ∧ t.xR = 0#32 ∧ t.xT = v ∧ t.xM = s.xM
      ∧ CommandFrame s t a b ∧ PassiveKept s t
      ∧ (s.noReset → v = s.core.ien ∧ t.core.ien = s.core.ien ||| a ∧ FileKept s t [.ien])

/-- R151: INTR_DIS clears its operand's bits in IEN by one read and one write, always OK. -/
def Obligations.IntrDisClearsInIen : Prop :=
  ∀ (s : State) (a b : Word),
    ∃ t v, exec (.intrDis a b) s = .next t
      ∧ t.trace = s.trace ++ [readEv s .ien v, writeEv s .ien (v &&& ~~~a), .ret .ok 0#32]
      ∧ t.status = .ok ∧ t.xR = 0#32 ∧ t.xT = v ∧ t.xM = s.xM
      ∧ CommandFrame s t a b ∧ PassiveKept s t
      ∧ (s.noReset → v = s.core.ien ∧ t.core.ien = s.core.ien &&& ~~~a ∧ FileKept s t [.ien])

/-- R152, R155, R157, R158, R159: the five stages of GLOBAL_INTR_EN in their order, and the masks they leave.
That a nested `ret` leaves no trace entry is the model's reading (log 18). R239, R242: the CP GPIO line ends masked. R245: on
the erratum revision, with the wrapper open and a hot-plug status pending, the interrupt output is on after the write of
stage 1; if nothing else is enabled or pending and HW is quiet it is off before and after the command. The record of the
lines is the model's own (log 24). -/
def Obligations.GlobalIntrEnStagesInOrder : Prop :=
  ∀ (s : State) (a b : Word),
    let m := s.cfg.map
    let hpd := bitMask m.hpdIenIrq ||| bitMask m.hpdIenHotPlug ||| bitMask m.hpdIenHotUnplug
    let wrap := fun v => if m.wrapSetIsUnmask then v ||| m.wrapIntBits else v &&& ~~~m.wrapIntBits
    let cp := fun v => if m.cpSetIsMask then v ||| bitMask m.cpGpioBit else v &&& ~~~bitMask m.cpGpioBit
    ∃ t v1 v2 v3 v4 v5, exec (.globalIntrEn a b) s = .next t
      ∧ t.trace = s.trace ++ ([readEv s .ien v1, writeEv s .ien (v1 ||| m.ienAll)]
          ++ (if s.cfg.quirk.hpdErratum then
                [readEv s .ien v2, writeEv s .ien (v2 &&& ~~~bitMask m.ienHpd)] else [])
          ++ [readEv s .wrapIntMask v3, writeEv s .wrapIntMask (wrap v3),
              readEv s .hpdIen v4, writeEv s .hpdIen (v4 ||| hpd)]
          ++ (if s.cfg.cpEnabled then
                [.callSecure, readEv s .cpGpioIntMask v5, writeEv s .cpGpioIntMask (cp v5)] else [])
          ++ [.ret .ok 0#32])
      ∧ t.status = .ok ∧ t.xR = 0#32 ∧ t.xM = s.xM ∧ CommandFrame s t a b ∧ PassiveKept s t
      ∧ (s.noReset →
          t.core.ien = (if s.cfg.quirk.hpdErratum then (s.core.ien ||| m.ienAll) &&& ~~~bitMask m.ienHpd
            else s.core.ien ||| m.ienAll)
          ∧ t.core.wrapIntMask = wrap s.core.wrapIntMask
          ∧ t.core.hpdIen = s.core.hpdIen ||| hpd
          ∧ t.core.cpGpioIntMask = (if s.cfg.cpEnabled then cp s.core.cpGpioIntMask else s.core.cpGpioIntMask)
          ∧ t.cpIrqOut = false
          ∧ FileKept s t [.ien, .wrapIntMask, .hpdIen, .cpGpioIntMask])
      ∧ (s.noReset → s.cfg.wf = true → s.cfg.quirk.hpdErratum = true → s.wrapOpen = true →
          bitAt s.core.ists m.ienHpd = true →
            (∃ x ∈ t.lines.drop s.lines.length, x.events = s.trace.length + 2 ∧ x.irqOut = true)
            ∧ (HwQuiet 12 s → s.core.ien &&& m.ienAll = 0#32 → s.core.ists &&& m.ienAll = bitMask m.ienHpd →
                s.irqOut = false ∧ t.irqOut = false))

/-- R153, R155, R157, R158, R159: the four stages of GLOBAL_INTR_DIS in the enumerated order, and the masks they leave.
That a nested `ret` leaves no trace entry is the model's reading (log 18). -/
def Obligations.GlobalIntrDisStagesInOrder : Prop :=
  ∀ (s : State) (a b : Word),
    let m := s.cfg.map
    let hpd := bitMask m.hpdIenIrq ||| bitMask m.hpdIenHotPlug ||| bitMask m.hpdIenHotUnplug
    let wrap := fun v => if m.wrapSetIsUnmask then v &&& ~~~m.wrapIntBits else v ||| m.wrapIntBits
    let cp := fun v => if m.cpSetIsMask then v &&& ~~~bitMask m.cpGpioBit else v ||| bitMask m.cpGpioBit
    ∃ t v1 v3 v4 v5, exec (.globalIntrDis a b) s = .next t
      ∧ t.trace = s.trace ++ ([readEv s .ien v1, writeEv s .ien (v1 &&& ~~~m.ienAll),
              readEv s .wrapIntMask v3, writeEv s .wrapIntMask (wrap v3),
              readEv s .hpdIen v4, writeEv s .hpdIen (v4 &&& ~~~hpd)]
          ++ (if s.cfg.cpEnabled then
                [.callSecure, readEv s .cpGpioIntMask v5, writeEv s .cpGpioIntMask (cp v5)] else [])
          ++ [.ret .ok 0#32])
      ∧ t.status = .ok ∧ t.xR = 0#32 ∧ t.xM = s.xM ∧ CommandFrame s t a b ∧ PassiveKept s t
      ∧ (s.noReset →
          t.core.ien = s.core.ien &&& ~~~m.ienAll
          ∧ t.core.wrapIntMask = wrap s.core.wrapIntMask
          ∧ t.core.hpdIen = s.core.hpdIen &&& ~~~hpd
          ∧ t.core.cpGpioIntMask = (if s.cfg.cpEnabled then cp s.core.cpGpioIntMask else s.core.cpGpioIntMask)
          ∧ FileKept s t [.ien, .wrapIntMask, .hpdIen, .cpGpioIntMask])

/-- R160: on a well-formed map, after the enable and then the disable, every bit of the toggled masks is 0 and every other
bit is as before. -/
def Obligations.GlobalEnableDisablePair : Prop :=
  ∀ (s t u : State) (a b c d : Word), s.cfg.wf = true → s.noReset →
    exec (.globalIntrEn a b) s = .next t → exec (.globalIntrDis c d) t = .next u →
      u.core.ien = s.core.ien &&& ~~~s.cfg.map.ienAll
      ∧ u.core.hpdIen = s.core.hpdIen &&& ~~~s.cfg.map.hpdIenAll
      ∧ u.core.wrapIntMask = wrapMask s.cfg.map s.core.wrapIntMask

/-- R154: GLOBAL_INTR_CLEAR writes all-ones to ISTS and then to HPDSTS with no read, changes no mask, and clears every
status bit that HW does not set again. -/
def Obligations.GlobalIntrClearClearsStatus : Prop :=
  ∀ (s : State) (a b : Word),
    ∃ t, exec (.globalIntrClear a b) s = .next t
      ∧ t.trace = s.trace ++ [writeEv s .ists 0xFFFFFFFF#32, writeEv s .hpdsts 0xFFFFFFFF#32, .ret .ok 0#32]
      ∧ t.status = .ok ∧ t.xR = 0#32 ∧ t.xT = s.xT ∧ t.xM = s.xM
      ∧ CommandFrame s t a b ∧ PassiveKept s t
      ∧ (s.noReset → FileKept s t [.ists, .hpdsts]
          ∧ t.core.ists &&& ~~~s.cfg.map.ienAll = s.core.ists &&& ~~~s.cfg.map.ienAll)
      ∧ (HwQuiet 3 s → t.core.ists = s.core.ists &&& ~~~s.cfg.map.ienAll
          ∧ t.core.hpdsts = s.core.hpdsts &&& ~~~s.cfg.map.hpdEvtAll)

/-- R242 (P1 to P3): with no enabled source, or the wrapper masked, irq_out is false; if every pending sub-event has its own
enable bit 0, hpd_active is false (each against the bit of its own name: the model's reading, log 12). R239, R242: with its source
masked, or without content protection, cp_irq_out is false. -/
def Obligations.MasksGateTheInterruptOutput : Prop :=
  ∀ s : State,
    (s.core.ien &&& s.cfg.map.ienAll = 0#32 → s.irqOut = false)
    ∧ (∀ v, s.core.wrapIntMask = wrapMask s.cfg.map v → s.irqOut = false)
    ∧ ((bitAt s.core.hpdsts s.cfg.map.hpdIrq = true → bitAt s.core.hpdIen s.cfg.map.hpdIenIrq = false) →
        (bitAt s.core.hpdsts s.cfg.map.hpdHotPlug = true → bitAt s.core.hpdIen s.cfg.map.hpdIenHotPlug = false) →
        (bitAt s.core.hpdsts s.cfg.map.hpdHotUnplug = true → bitAt s.core.hpdIen s.cfg.map.hpdIenHotUnplug = false) →
        s.hpdActive = false)
    ∧ (bitAt s.core.cpGpioIntMask s.cfg.map.cpGpioBit = s.cfg.map.cpSetIsMask ∨ s.cfg.cpEnabled = false →
        s.cpIrqOut = false)

/-- R153, R242: after GLOBAL_INTR_DIS, with no reset held, the interrupt output is quiet and no sub-event is active. -/
def Obligations.GlobalDisableQuietsTheOutput : Prop :=
  ∀ (s t : State) (a b : Word), s.noReset → exec (.globalIntrDis a b) s = .next t →
    t.irqOut = false ∧ t.hpdActive = false

/-! ### Reset sequencer -/

/-- R170, R284: SOFT_RESET asserts the valid bits asked for, holds them at least T_SRST_HOLD_MIN and de-asserts them, whatever
HW does meanwhile. With no valid bit asked for and none held, no register changes. -/
def Obligations.SoftResetAssertsHoldsDeasserts : Prop :=
  ∀ (s : State) (a b : Word),
    let m := a &&& s.cfg.map.srstValid
    let v := s.core.srstCtrl
    ∃ t t0 t1, exec (.softReset a b) s = .next t
      ∧ t.trace = s.trace ++ [readEv s .srstCtrl v, writeEv s .srstCtrl (v ||| m), .wait t0 t1,
          readEv s .srstCtrl (v ||| m), writeEv s .srstCtrl ((v ||| m) &&& ~~~m), .ret .ok 0#32]
      ∧ s.now ≤ t0 ∧ t0 + s.cfg.tSrstHoldMin ≤ t1 ∧ t1 ≤ t.now
      ∧ t.core.srstCtrl = v &&& ~~~m ∧ t.xM = m ∧ t.xT = v ||| m
      ∧ t.status = .ok ∧ t.xR = 0#32 ∧ CommandFrame s t a b ∧ PassiveKept s t
      ∧ (s.noReset → m = 0#32 → FileKept s t [.srstCtrl])

/-- R127, R171, R172: SOFT_RESET_ALL and PHY_SOFT_RESET are exactly SOFT_RESET with their mask: the same state but for the
operands left in x[A] and x[B]. The equality of the traces rests on the model's reading that the nested `ret` leaves no entry
(R23, log 18). -/
def Obligations.ConvenienceResetsAreSoftReset : Prop :=
  ∀ (s : State) (a b : Word),
    (∃ t, exec (.softResetAll a b) s = .next t
      ∧ exec (.softReset s.cfg.map.srstValid 0#32) s
          = .next { t with xA := s.cfg.map.srstValid, xB := 0#32 }
      ∧ t.xA = a ∧ t.xB = b ∧ t.status = .ok)
    ∧ (∃ t, exec (.phySoftReset a b) s = .next t
      ∧ exec (.softReset s.cfg.map.srstPhy 0#32) s
          = .next { t with xA := s.cfg.map.srstPhy, xB := 0#32 }
      ∧ t.xA = a ∧ t.xB = b ∧ t.status = .ok)

/-- R173: TYPEC_ACK writes back the word it read with the acknowledge bit equal to the status bit it read. -/
def Obligations.TypecAckCopiesStatus : Prop :=
  ∀ (s : State) (a b : Word),
    let ack := s.cfg.map.typecDisableAck
    let st := s.cfg.map.typecDisableStatus
    ∃ t v w, exec (.typecAck a b) s = .next t
      ∧ t.trace = s.trace ++ [readEv s .typeCCtrl v, writeEv s .typeCCtrl w, .ret .ok 0#32]
      ∧ bitAt w ack = bitAt v st ∧ w &&& ~~~bitMask ack = v &&& ~~~bitMask ack
      ∧ t.status = .ok ∧ t.xR = 0#32 ∧ t.xT = w ∧ t.xM = s.xM ∧ CommandFrame s t a b ∧ PassiveKept s t
      ∧ (s.noReset → ack ≠ st →
          KeptWord s.cfg.map .typeCCtrl s.core.typeCCtrl v
          ∧ bitAt t.core.typeCCtrl ack = bitAt v st
          ∧ t.core.typeCCtrl &&& ~~~(bitMask ack ||| bitMask st)
              = s.core.typeCCtrl &&& ~~~(bitMask ack ||| bitMask st)
          ∧ FileKept s t [.typeCCtrl])

/-- R174, R285: AUX_RESET sets or clears the block-enable bit, rewrites the tuning field, and returns no earlier than the
AUX channel is usable. -/
def Obligations.AuxResetProgramsAndSettles : Prop :=
  ∀ (s : State) (a b : Word),
    let m := s.cfg.map
    let prog := fun v : Word =>
      putField (if a ≠ 0#32 then v ||| bitMask m.auxBlockEn else v &&& ~~~bitMask m.auxBlockEn)
        m.auxVodTune m.auxVodTuneCal
    ∃ t v t0 t1, exec (.auxReset a b) s = .next t
      ∧ t.trace = s.trace ++ [readEv s .auxCtrl v, writeEv s .auxCtrl (prog v), .wait t0 t1, .ret .ok 0#32]
      ∧ t0 + s.cfg.tAuxSettle ≤ t1 ∧ t1 ≤ t.now ∧ t.auxReadyAt ≤ t1
      ∧ t.status = .ok ∧ t.xR = 0#32 ∧ t.xM = s.xM ∧ CommandFrame s t a b
      ∧ CaptureKept s t ∧ t.deadline = s.deadline
      ∧ (s.noReset → v = s.core.auxCtrl ∧ t.core.auxCtrl = prog s.core.auxCtrl ∧ FileKept s t [.auxCtrl])

/-- R176: the seven stages of CORE_INIT: its thirteen accesses and one wait in order, whatever HW does, and the captured
identity. That a nested `ret` leaves no trace entry is the model's reading (log 18). -/
def Obligations.CoreInitSequenceAndCapture : Prop :=
  ∀ (s : State) (a b : Word),
    let m := s.cfg.map
    let v := s.core.srstCtrl
    let n := s.cfg.verNumber
    let y := s.cfg.verType
    ∃ t t0 t1 c p q, exec (.coreInit a b) s = .next t
      ∧ t.trace = s.trace ++
          [readEv s .srstCtrl v, writeEv s .srstCtrl (v ||| m.srstValid), .wait t0 t1,
           readEv s .srstCtrl (v ||| m.srstValid), writeEv s .srstCtrl ((v ||| m.srstValid) &&& ~~~m.srstValid),
           readEv s .typeCCtrl c, writeEv s .typeCCtrl (typecAcked m c),
           readEv s .phyifCtrl p, writeEv s .phyifCtrl (lanesPowered s.cfg 0#32 p),
           writeEv s .cctl 0#32, readEv s .verNumber n, readEv s .verType y,
           readEv s .phyifCtrl q, writeEv s .phyifCtrl (widthChosen s.cfg q), .ret .ok 0#32]
      ∧ t0 + s.cfg.tSrstHoldMin ≤ t1 ∧ t1 ≤ t.now
      ∧ t.verstr.toList = [n.extractLsb' 24 8, 0x2E#8, n.extractLsb' 16 8, n.extractLsb' 8 8, n.extractLsb' 0 8,
          0x2D#8, y.extractLsb' 24 8, y.extractLsb' 16 8, y.extractLsb' 8 8, y.extractLsb' 0 8]
      ∧ t.version = y
      ∧ t.status = .ok ∧ t.xR = 0#32 ∧ CommandFrame s t a b
      ∧ t.deadline = s.deadline ∧ t.auxReadyAt = s.auxReadyAt
      ∧ t.core.srstCtrl = v &&& ~~~m.srstValid

/-- R280: what CORE_INIT establishes on a well-formed map, whatever HW does: no reset held, CCTL zero, all lanes powered down,
the width of the mode, the acknowledge bit equal to the disable status it read. -/
def Obligations.CoreInitEstablishes : Prop :=
  ∀ (s : State) (a b : Word), s.cfg.wf = true →
    ∃ t, exec (.coreInit a b) s = .next t
      ∧ t.core.srstCtrl &&& s.cfg.map.srstValid = 0#32
      ∧ t.core.cctl = 0#32
      ∧ t.phyConfig.powered = ⟨false, false, false, false⟩
      ∧ bitAt t.core.phyifCtrl s.cfg.map.width = !s.cfg.simMode
      ∧ (∃ c new, t.trace = s.trace ++ new ∧ readEv s .typeCCtrl c ∈ new
          ∧ bitAt t.core.typeCCtrl s.cfg.map.typecDisableAck = bitAt c s.cfg.map.typecDisableStatus)

/-- R177: CHECK_CORE_ID reads ID once, compares the whole word, and returns it in both outcomes; nothing is written. -/
def Obligations.CheckCoreIdComparesWholeWord : Prop :=
  ∀ (s : State) (a b : Word),
    let id := s.cfg.idValue
    let good := id = s.cfg.map.idExpected
    ∃ t, exec (.checkCoreId a b) s = .next t
      ∧ t.trace = s.trace ++ (if good then [readEv s .id id, .ret .ok id]
          else [readEv s .id id, .log .identityMismatch, .ret .identityMismatch id])
      ∧ t.status = (if good then .ok else .identityMismatch) ∧ t.xR = id ∧ t.xT = id ∧ t.xM = s.xM
      ∧ CommandFrame s t a b ∧ PassiveKept s t
      ∧ (s.noReset → FileKept s t [])

/-- R178: CORE_DEINIT disables the interrupts stage by stage and then resets every sub-block, holding as SOFT_RESET does.
That a nested `ret` leaves no trace entry is the model's reading (log 18). -/
def Obligations.CoreDeinitDisablesThenResets : Prop :=
  ∀ (s : State) (a b : Word),
    let m := s.cfg.map
    let v := s.core.srstCtrl
    ∃ t t0 t1 v1 v3 v4 v5, exec (.coreDeinit a b) s = .next t
      ∧ t.trace = s.trace ++ ([readEv s .ien v1, writeEv s .ien (v1 &&& ~~~m.ienAll),
              readEv s .wrapIntMask v3, writeEv s .wrapIntMask (wrapMask m v3),
              readEv s .hpdIen v4, writeEv s .hpdIen (v4 &&& ~~~m.hpdIenAll)]
          ++ (if s.cfg.cpEnabled then
                [.callSecure, readEv s .cpGpioIntMask v5, writeEv s .cpGpioIntMask (cpUnmask m v5)] else [])
          ++ [readEv s .srstCtrl v, writeEv s .srstCtrl (v ||| m.srstValid), .wait t0 t1,
              readEv s .srstCtrl (v ||| m.srstValid),
              writeEv s .srstCtrl ((v ||| m.srstValid) &&& ~~~m.srstValid), .ret .ok 0#32])
      ∧ t0 + s.cfg.tSrstHoldMin ≤ t1 ∧ t1 ≤ t.now
      ∧ t.core.srstCtrl = v &&& ~~~m.srstValid
      ∧ t.status = .ok ∧ t.xR = 0#32 ∧ CommandFrame s t a b ∧ PassiveKept s t

/-! ### PHY lane controller -/

/-- R190, R191: SET_LANES_POWER drives all four lanes in the layout in use by one RMW, and on power-up then writes 0x211 and 0
to PHYCR address 4; on power-down it writes nothing there. -/
def Obligations.SetLanesPowerDrivesAllLanes : Prop :=
  ∀ (s : State) (a b : Word),
    let m := s.cfg.map
    let w := fun v : Word =>
      if s.cfg.quirk.combinedPwrdown then putField v m.pwrdownComb (if a ≠ 0#32 then 0#32 else m.pwrdownCombDown)
      else if a ≠ 0#32 then v &&& ~~~m.pwrdownLane.allMask else v ||| m.pwrdownLane.allMask
    ∃ t v, exec (.setLanesPower a b) s = .next t
      ∧ t.trace = s.trace ++ ([readEv s .phyifCtrl v, writeEv s .phyifCtrl (w v)]
          ++ (if a ≠ 0#32 then [.memWrite .phycr 4#32 0x211#32, .memWrite .phycr 4#32 0#32] else [])
          ++ [.ret .ok 0#32])
      ∧ t.status = .ok ∧ t.xR = 0#32 ∧ CommandFrame s t a b ∧ PassiveKept s t
      ∧ (s.noReset →
          outsideBusy s t.core.phyifCtrl = outsideBusy s (w s.core.phyifCtrl)
          ∧ RegsKept s t [.phyifCtrl] ∧ t.phycr4 = (if a ≠ 0#32 then 0#32 else s.phycr4)
          ∧ (s.cfg.wf = true → t.phyConfig.powered
              = ⟨decide (a ≠ 0#32), decide (a ≠ 0#32), decide (a ≠ 0#32), decide (a ≠ 0#32)⟩))

/-- R192, R121: GET_LANES reads PHYIF_CTRL once and returns `1 << LANES`, unvalidated, whenever that fits a word. -/
def Obligations.GetLanesDecodesField : Prop :=
  ∀ (s : State) (a b : Word),
    ∃ t v x, exec (.getLanes a b) s = .next t
      ∧ t.trace = s.trace ++ [readEv s .phyifCtrl v, .ret .ok x]
      ∧ ((getField v s.cfg.map.lanes).toNat < 32 → x = 1#32 <<< (getField v s.cfg.map.lanes).toNat)
      ∧ t.status = .ok ∧ t.xR = x ∧ t.xT = v ∧ t.xM = s.xM ∧ CommandFrame s t a b ∧ PassiveKept s t
      ∧ (s.noReset → FileKept s t []
          ∧ (s.cfg.wf = true → getField v s.cfg.map.lanes = getField s.core.phyifCtrl s.cfg.map.lanes))

/-- R193: SET_LANES of 1, 2 or 4 stores 0, 1 or 2 in the LANES field by one RMW; any other count is logged, with no access and
status OK. -/
def Obligations.SetLanesStoresLogOrLogs : Prop :=
  ∀ (s : State) (a b : Word),
    (∀ n : Word, (a = 1#32 ∧ n = 0#32) ∨ (a = 2#32 ∧ n = 1#32) ∨ (a = 4#32 ∧ n = 2#32) →
      ∃ t v, exec (.setLanes a b) s = .next t
        ∧ t.trace = s.trace ++ [readEv s .phyifCtrl v, writeEv s .phyifCtrl (putField v s.cfg.map.lanes n),
            .ret .ok 0#32]
        ∧ t.status = .ok ∧ t.xR = 0#32 ∧ t.xT = v ∧ t.xM = s.xM ∧ CommandFrame s t a b ∧ PassiveKept s t
        ∧ (s.noReset →
            outsideBusy s t.core.phyifCtrl = outsideBusy s (putField s.core.phyifCtrl s.cfg.map.lanes n)
            ∧ FileKept s t [.phyifCtrl]))
    ∧ (a ≠ 1#32 → a ≠ 2#32 → a ≠ 4#32 →
      ∃ t, exec (.setLanes a b) s = .next t
        ∧ t.trace = s.trace ++ [.log .invalidLaneCount, .ret .ok 0#32]
        ∧ t.status = .ok ∧ t.xR = 0#32 ∧ t.xT = s.xT ∧ t.xM = s.xM ∧ CommandFrame s t a b ∧ PassiveKept s t
        ∧ (s.noReset → FileKept s t []))

/-- R204, S1: GET_LANES after SET_LANES n returns n, for n in 1, 2, 4, on every well-formed map. -/
def Obligations.LaneCountRoundTrip : Prop :=
  ∀ (s t u : State) (n b c d : Word), s.cfg.wf = true → s.noReset → n = 1#32 ∨ n = 2#32 ∨ n = 4#32 →
    exec (.setLanes n b) s = .next t → exec (.getLanes c d) t = .next u → u.xR = n

/-- R194: SET_RATE stores its operand truncated into the RATE field by one RMW, always OK; an operand that is none of the four
encodings is logged first and stored all the same. -/
def Obligations.SetRateStoresTruncated : Prop :=
  ∀ (s : State) (a b : Word),
    ∃ t v, exec (.setRate a b) s = .next t
      ∧ t.trace = s.trace ++ ((if a ∈ s.cfg.map.rates then [] else [.log .invalidRate])
          ++ [readEv s .phyifCtrl v, writeEv s .phyifCtrl (putField v s.cfg.map.rate a), .ret .ok 0#32])
      ∧ t.status = .ok ∧ t.xR = 0#32 ∧ t.xT = v ∧ t.xM = s.xM ∧ CommandFrame s t a b ∧ PassiveKept s t
      ∧ (s.noReset →
          outsideBusy s t.core.phyifCtrl = outsideBusy s (putField s.core.phyifCtrl s.cfg.map.rate a)
          ∧ FileKept s t [.phyifCtrl])

/-- R195: GET_RATE reads PHYIF_CTRL once and returns the raw RATE field. -/
def Obligations.GetRateReturnsField : Prop :=
  ∀ (s : State) (a b : Word),
    ∃ t v, exec (.getRate a b) s = .next t
      ∧ t.trace = s.trace ++ [readEv s .phyifCtrl v, .ret .ok (getField v s.cfg.map.rate)]
      ∧ t.status = .ok ∧ t.xR = getField v s.cfg.map.rate ∧ t.xT = v ∧ t.xM = s.xM
      ∧ CommandFrame s t a b ∧ PassiveKept s t
      ∧ (s.noReset → FileKept s t []
          ∧ (s.cfg.wf = true → t.xR = getField s.core.phyifCtrl s.cfg.map.rate))

/-- R204, S8: GET_RATE after SET_RATE r returns r, for each of the four encodings, on every well-formed map. -/
def Obligations.RateRoundTrip : Prop :=
  ∀ (s t u : State) (r b c d : Word), s.cfg.wf = true → s.noReset → r ∈ s.cfg.map.rates →
    exec (.setRate r b) s = .next t → exec (.getRate c d) t = .next u → u.xR = r

/-- R197: in simulated mode WAIT_BUSY succeeds at once, with no access and no event, whatever its operands. -/
def Obligations.WaitBusySimulatedIsImmediate : Prop :=
  ∀ (s : State) (a b : Word), s.cfg.simMode = true →
    ∃ t, exec (.waitBusy a b) s = .next t
      ∧ t.trace = s.trace ++ [.ret .ok 0#32]
      ∧ t.status = .ok ∧ t.xR = 0#32 ∧ t.xT = s.xT ∧ t.xM = s.xM ∧ CommandFrame s t a b ∧ PassiveKept s t
      ∧ (s.noReset → FileKept s t [])

/-- R197 guarantees (1) to (4), R196: outside simulated mode WAIT_BUSY completes with OK or Busy, never writing. The reads
before the last all show a selected busy bit; OK means the last read shows none; Busy means the last shows one too and the
deadline has passed. The deadline is T_BUSY_DEADLINE, whatever operand b says.
R232: an invalid lane count is logged first, a timeout is logged last before the `ret`, and nothing else is logged. -/
def Obligations.WaitBusyOutcomes : Prop :=
  ∀ (s : State) (a b : Word), s.cfg.simMode = false →
    let sel := laneBits s.cfg.map.busy a
    ∃ t poll vs last, exec (.waitBusy a b) s = .next t
      ∧ t.trace = s.trace ++ ((if a = 1#32 ∨ a = 2#32 ∨ a = 4#32 then [] else [.log .invalidLanes]) ++ poll
          ++ (if t.status = .busy then [.log .busy] else []) ++ [.ret t.status t.xR])
      ∧ writesOf poll = [] ∧ logsOf poll = []
      ∧ readsOf poll = (vs ++ [last]).map (fun v => (Space.core, s.cfg.map.offsetOf .phyifCtrl, v))
      ∧ (∀ v ∈ vs, v &&& sel ≠ 0#32)
      ∧ ((t.status = .ok ∧ t.xR = 0#32 ∧ last &&& sel = 0#32)
          ∨ (t.status = .busy ∧ t.xR = last &&& sel ∧ last &&& sel ≠ 0#32
              ∧ s.now + s.cfg.tBusyDeadline ≤ t.now))
      ∧ t.xM = sel ∧ CommandFrame s t a b ∧ CaptureKept s t ∧ t.auxReadyAt = s.auxReadyAt
      ∧ (s.noReset → FileKept s t [])

/-- R197 (3), (7), R196: with no selected busy bit set, and with none to select, the first read succeeds: no wait. An invalid
lane count is logged first. -/
def Obligations.WaitBusyStartsClear : Prop :=
  ∀ (s : State) (a b : Word), s.cfg.simMode = false → HwQuiet 2 s →
    s.core.phyifCtrl &&& laneBits s.cfg.map.busy a = 0#32 →
      ∃ t, exec (.waitBusy a b) s = .next t
        ∧ t.trace = s.trace ++ ((if a = 1#32 ∨ a = 2#32 ∨ a = 4#32 then [] else [.log .invalidLanes])
            ++ [readEv s .phyifCtrl s.core.phyifCtrl, .ret .ok 0#32])
        ∧ t.status = .ok ∧ t.xR = 0#32

/-- R197 (5): each poll lasts at least T_POLL, so all reads but the last fit before the deadline. -/
def Obligations.WaitBusyReadsAreBounded : Prop :=
  ∀ (s t : State) (a b : Word), s.cfg.simMode = false → exec (.waitBusy a b) s = .next t →
    ∃ new, t.trace = s.trace ++ new
      ∧ (2 ≤ (readsOf new).length → ((readsOf new).length - 1) * s.cfg.tPoll < s.cfg.tBusyDeadline)

/-- R199, R200, R123: with a valid lane the equalization setters store min(level, 3) in the lane's own field by one RMW, logging
a clamped level; with an invalid lane they log that alone and access nothing. Always OK. -/
def Obligations.EqualizationSettersClampOrLog : Prop :=
  ∀ (s : State) (a b : Word) (i : Instr) (fields : PerLane Field),
    (i = .setPreEmphasis a b ∧ fields = s.cfg.map.preemp) ∨ (i = .setVswing a b ∧ fields = s.cfg.map.vswing) →
    (a.toNat ≤ 3 →
      let lvl : Word := if b.toNat ≤ 3 then b else 3#32
      ∃ t v, exec i s = .next t
        ∧ t.trace = s.trace ++ ((if b.toNat ≤ 3 then [] else [.log .levelClamped])
            ++ [readEv s .phyTxEq v, writeEv s .phyTxEq (putField v (fields.get a.toNat) lvl), .ret .ok 0#32])
        ∧ t.status = .ok ∧ t.xR = 0#32 ∧ t.xT = v ∧ t.xM = s.xM ∧ CommandFrame s t a lvl ∧ PassiveKept s t
        ∧ (s.noReset → t.core.phyTxEq = putField s.core.phyTxEq (fields.get a.toNat) lvl
            ∧ FileKept s t [.phyTxEq]
            ∧ (s.cfg.wf = true → getField t.core.phyTxEq (fields.get a.toNat) = lvl)))
    ∧ (3 < a.toNat →
      ∃ t, exec i s = .next t
        ∧ t.trace = s.trace ++ [.log .invalidLaneIndex, .ret .ok 0#32]
        ∧ t.status = .ok ∧ t.xR = 0#32 ∧ t.xT = s.xT ∧ t.xM = s.xM ∧ CommandFrame s t a b ∧ PassiveKept s t
        ∧ (s.noReset → FileKept s t []))

/-- R203, R204: on a well-formed map an equalization setter leaves the other seven fields as they were. -/
def Obligations.EqualizationFieldsAreIndependent : Prop :=
  ∀ (s t : State) (a b : Word), s.cfg.wf = true → s.noReset → a.toNat ≤ 3 →
    (exec (.setPreEmphasis a b) s = .next t →
      t.phyConfig.vswing = s.phyConfig.vswing
      ∧ ∀ l, l ≤ 3 → l ≠ a.toNat → t.phyConfig.preemp.get l = s.phyConfig.preemp.get l)
    ∧ (exec (.setVswing a b) s = .next t →
      t.phyConfig.preemp = s.phyConfig.preemp
      ∧ ∀ l, l ≤ 3 → l ≠ a.toNat → t.phyConfig.vswing.get l = s.phyConfig.vswing.get l)

/-- R201: SET_PATTERN truncates its operand into the TPS_SEL field by one RMW, with no event, always OK. -/
def Obligations.SetPatternStoresTruncated : Prop :=
  ∀ (s : State) (a b : Word),
    ∃ t v, exec (.setPattern a b) s = .next t
      ∧ t.trace = s.trace ++ [readEv s .phyifCtrl v, writeEv s .phyifCtrl (putField v s.cfg.map.tpsSel a),
          .ret .ok 0#32]
      ∧ t.status = .ok ∧ t.xR = 0#32 ∧ t.xT = v ∧ t.xM = s.xM ∧ CommandFrame s t a b ∧ PassiveKept s t
      ∧ (s.noReset →
          outsideBusy s t.core.phyifCtrl = outsideBusy s (putField s.core.phyifCtrl s.cfg.map.tpsSel a)
          ∧ FileKept s t [.phyifCtrl])

/-- R202, R122: ENABLE_XMIT sets or clears the transmit-enable bits of the first n lanes in one RMW; an invalid count is logged
and the word read is written back. Always OK. -/
def Obligations.EnableXmitSetsSelectedLanes : Prop :=
  ∀ (s : State) (a b : Word),
    let k := s.cfg.map.xmitEn
    let sel : Word := if a = 1#32 then bitMask k.lane0 else if a = 2#32 then bitMask k.lane0 ||| bitMask k.lane1
      else if a = 4#32 then bitMask k.lane0 ||| bitMask k.lane1 ||| bitMask k.lane2 ||| bitMask k.lane3 else 0#32
    let w := fun v : Word => if b ≠ 0#32 then v ||| sel else v &&& ~~~sel
    ∃ t v, exec (.enableXmit a b) s = .next t
      ∧ t.trace = s.trace ++ ((if a = 1#32 ∨ a = 2#32 ∨ a = 4#32 then [] else [.log .invalidLanes])
          ++ [readEv s .phyifCtrl v, writeEv s .phyifCtrl (w v), .ret .ok 0#32])
      ∧ t.status = .ok ∧ t.xR = 0#32 ∧ t.xT = w v ∧ t.xM = sel ∧ CommandFrame s t a b ∧ PassiveKept s t
      ∧ (s.noReset → outsideBusy s t.core.phyifCtrl = outsideBusy s (w s.core.phyifCtrl)
          ∧ FileKept s t [.phyifCtrl])

/-- R203: on a well-formed map each of the five PHYIF_CTRL transitions leaves the others' projections as they were. -/
def Obligations.PhyTransitionsAreIndependent : Prop :=
  ∀ (s t : State) (a b : Word), s.cfg.wf = true → s.noReset →
    (exec (.setPattern a b) s = .next t →
      { t.phyConfig with pattern := s.phyConfig.pattern } = s.phyConfig)
    ∧ (exec (.setRate a b) s = .next t → { t.phyConfig with rate := s.phyConfig.rate } = s.phyConfig)
    ∧ (exec (.setLanes a b) s = .next t →
        { t.phyConfig with laneCount := s.phyConfig.laneCount } = s.phyConfig)
    ∧ (exec (.enableXmit a b) s = .next t → { t.phyConfig with xmit := s.phyConfig.xmit } = s.phyConfig)
    ∧ (exec (.setLanesPower a b) s = .next t →
        { t.phyConfig with powered := s.phyConfig.powered } = s.phyConfig)

/-! ### Translator -/

/-- R220, R221: the translators map the four rates to their bandwidth constants and back, by the whole operand, and give any
other operand InvalidArgument with the sentinel; they touch no register. The map is taken well formed, so that no two
cases meet. -/
def Obligations.TranslatorsFollowTheirTables : Prop :=
  ∀ (s : State) (a b : Word) (i : Instr) (src dst : List Word), s.cfg.wf = true →
    (i = .rateToBw a b ∧ src = s.cfg.map.rates ∧ dst = s.cfg.map.bandwidths)
      ∨ (i = .bwToRate a b ∧ src = s.cfg.map.bandwidths ∧ dst = s.cfg.map.rates) →
    (∀ k : Fin 4, src[k.val]? = some a →
      ∃ t v, exec i s = .next t ∧ dst[k.val]? = some v
        ∧ t.trace = s.trace ++ [.ret .ok v] ∧ t.status = .ok ∧ t.xR = v
        ∧ t.xT = s.xT ∧ t.xM = s.xM ∧ CommandFrame s t a b ∧ PassiveKept s t ∧ (s.noReset → FileKept s t []))
    ∧ (a ∉ src →
      ∃ t, exec i s = .next t
        ∧ t.trace = s.trace ++ [.log .invalidArgument, .ret .invalidArgument s.cfg.map.sentinel]
        ∧ t.status = .invalidArgument ∧ t.xR = s.cfg.map.sentinel
        ∧ t.xT = s.xT ∧ t.xM = s.xM ∧ CommandFrame s t a b ∧ PassiveKept s t ∧ (s.noReset → FileKept s t []))

/-- R222: on a well-formed map the two translations are inverse to each other on the four rates and the four constants. -/
def Obligations.TranslatorRoundTrip : Prop :=
  ∀ (s t u : State) (x b c : Word), s.cfg.wf = true →
    (x ∈ s.cfg.map.rates → exec (.rateToBw x b) s = .next t → exec (.bwToRate t.xR c) t = .next u →
      u.xR = x ∧ u.status = .ok)
    ∧ (x ∈ s.cfg.map.bandwidths → exec (.bwToRate x b) s = .next t → exec (.rateToBw t.xR c) t = .next u →
      u.xR = x ∧ u.status = .ok)

/-! ### The whole machine -/

/-- R297, R22: every command, from every state, ends at its `ret`: idle, with its handle, and with a trace that is the old one
followed by entries of which the last is that `ret` with the status and value then readable. -/
def Obligations.EveryCommandEndsAtItsRet : Prop :=
  ∀ (i : Instr) (s : State),
    ∃ t new, exec i s = .next t ∧ t.pc = .idle ∧ HandleKept s t ∧ s.now ≤ t.now
      ∧ t.trace = s.trace ++ new ++ [.ret t.status t.xR]

/-- R232, R237: which commands can end in which propagated status; all the others end OK whatever their operands. -/
def Obligations.OnlyTheseCommandsReportErrors : Prop :=
  ∀ (i : Instr) (s t : State), exec i s = .next t →
    (t.status = .busy → ∃ a b, i = .waitBusy a b)
    ∧ (t.status = .identityMismatch → ∃ a b, i = .checkCoreId a b)
    ∧ (t.status = .invalidArgument → ∃ a b, i = .rateToBw a b ∨ i = .bwToRate a b)
    ∧ (t.status = .refused → ∃ a b, i = .regRead a b ∨ i = .regWrite a b)

/-- R235: a command that ends in an error has written no register. -/
def Obligations.ErrorsLeaveNoWrites : Prop :=
  ∀ (i : Instr) (s t : State), exec i s = .next t → t.status ≠ .ok →
    ∃ new, t.trace = s.trace ++ new ∧ writesOf new = []

/-- R70, R191: no command but SET_LANES_POWER with a true operand writes the companion PHY interface. -/
def Obligations.OnlyLanePowerUpReachesPhycr : Prop :=
  ∀ (i : Instr) (s t : State), exec i s = .next t → (∀ a b, i = .setLanesPower a b → a = 0#32) →
    ∃ new, t.trace = s.trace ++ new ∧ ∀ off v, Event.memWrite .phycr off v ∉ new

/-- R25: no command but CORE_INIT changes the captured identity. -/
def Obligations.OnlyCoreInitCaptures : Prop :=
  ∀ (i : Instr) (s t : State), exec i s = .next t → (∀ a b, i ≠ .coreInit a b) → CaptureKept s t

/-- R34: only the reset commands, bring-up, shut-down and a raw write can change SRST_CTRL. -/
def Obligations.OnlyResetCommandsChangeSrstCtrl : Prop :=
  ∀ (i : Instr) (s t : State), exec i s = .next t → t.core.srstCtrl ≠ s.core.srstCtrl →
    ∃ a b, i = .softReset a b ∨ i = .softResetAll a b ∨ i = .phySoftReset a b ∨ i = .coreInit a b
      ∨ i = .coreDeinit a b ∨ (i = .regWrite a b ∧ s.cfg.regAt a = some .srstCtrl)

/-- R22, R23, R117: every step keeps the invariant of runs: idle between steps, no saved caller, and an attached handle has a
well-formed map. -/
def Obligations.EveryStepKeepsInv : Prop :=
  ∀ s t : State, s.Inv → step s = .next t → t.Inv

/-- R55, R271: the invariant holds after reset, where the block is detached and idle with an empty trace. -/
def Obligations.ResetIsDetachedAndIdle : Prop :=
  State.reset.Inv ∧ State.reset.attached = false ∧ State.reset.pc = .idle ∧ State.reset.trace = []

/-- R27, R28, R7, R26: along every step time does not go back, the trace and the record of the interrupt lines (the model's
own, log 24) are only added to, and an attached handle's configuration does not change. -/
def Obligations.TimeTraceAndCfgOfEveryStep : Prop :=
  ∀ s t : State, step s = .next t →
    s.now ≤ t.now ∧ (∃ new, t.trace = s.trace ++ new) ∧ s.lines <+: t.lines ∧ (s.attached = true → t.cfg = s.cfg)
end

