-- ==== Sys2Proof/Laws/Fields.lean ====
section
/-! SUPPORT. Laws of masks and fields (R11, R12), of the bitwise write (R73) and of the register file. -/

namespace Sys2Proof

/-! ### Words bit by bit -/

theorem and_all_ones (x : Word) : x &&& 4294967295#32 = x := by
  have : (4294967295#32) = BitVec.allOnes 32 := by decide
  rw [this, BitVec.and_allOnes]

/-- Two words agree under a mask when they agree at every bit of it. -/
theorem and_mask_eq_iff (x y m : Word) :
    x &&& m = y &&& m ↔ ∀ i, i < 32 → m.getLsbD i = true → x.getLsbD i = y.getLsbD i := by
  constructor
  · intro h i _ hm
    have := congrArg (fun w : Word => w.getLsbD i) h
    simpa [hm] using this
  · intro h
    apply BitVec.eq_of_getLsbD_eq
    intro i hi
    cases hm : m.getLsbD i <;> simp [hm]
    exact h i hi hm

/-- A word is zero under a mask when every bit of the mask is zero in it. -/
theorem and_mask_eq_zero_iff (x m : Word) :
    x &&& m = 0#32 ↔ ∀ i, i < 32 → m.getLsbD i = true → x.getLsbD i = false := by
  constructor
  · intro h i _ hm
    have := congrArg (fun w : Word => w.getLsbD i) h
    simpa [hm] using this
  · intro h
    apply BitVec.eq_of_getLsbD_eq
    intro i hi
    cases hm : m.getLsbD i <;> simp [hm]
    exact h i hi hm

theorem blend_getLsbD (m x y : Word) (i : Nat) (hi : i < 32) :
    (blend m x y).getLsbD i = if m.getLsbD i then y.getLsbD i else x.getLsbD i := by
  cases hm : m.getLsbD i <;> simp [blend, hm, hi, -BitVec.getLsbD_eq_getElem]

@[simp] theorem blend_zero (x y : Word) : blend 0#32 x y = x := by
  apply BitVec.eq_of_getLsbD_eq
  intro i hi
  rw [blend_getLsbD _ _ _ _ hi]; simp

theorem bitMask_getLsbD (p : BitPos) (i : Nat) (hi : i < 32) :
    (bitMask p).getLsbD i = decide (i = p.val) := by
  simp only [bitMask, BitVec.getLsbD_shiftLeft, BitVec.getLsbD_one, hi, decide_true, Bool.true_and]
  by_cases h : i = p.val
  · simp [h]
  · by_cases h2 : i < p.val
    · simp [h2, h]
    · have : i - p.val ≠ 0 := by omega
      simp [h2, h, this]

/-- A bit read through its mask. -/
theorem bitAt_eq_mask (v : Word) (p : BitPos) : bitAt v p = decide (v &&& bitMask p ≠ 0#32) := by
  by_cases h : v.getLsbD p.val = true
  · have : v &&& bitMask p ≠ 0#32 := by
      rw [Ne, and_mask_eq_zero_iff]
      intro hz
      have := hz p.val p.isLt (by rw [bitMask_getLsbD _ _ p.isLt]; simp)
      rw [this] at h; exact absurd h (by decide)
    simp [bitAt, h, this, -BitVec.getLsbD_eq_getElem]
  · have : v &&& bitMask p = 0#32 := by
      rw [and_mask_eq_zero_iff]
      intro i hi hm
      rw [bitMask_getLsbD _ _ hi, decide_eq_true_eq] at hm
      subst hm; exact Bool.eq_false_iff.2 h
    simp only [bitAt, this, ne_eq, not_true_eq_false, decide_false]
    exact Bool.eq_false_iff.2 h

/-! ### Fields -/

theorem Field.mask_getLsbD (f : Field) (i : Nat) (hi : i < 32) :
    f.mask.getLsbD i = decide (f.shift ≤ i ∧ i < f.shift + f.width) := by
  have key : ∀ w j : Nat, j < 32 → ((1#32 <<< w) - 1#32).getLsbD j = decide (j < w) := by
    intro w j hj
    by_cases hw : w < 32
    · have e : ((1#32 <<< w) - 1#32) = BitVec.ofNat 32 (2 ^ w - 1) := by
        apply BitVec.eq_of_toNat_eq
        have h1 : 1 ≤ 2 ^ w := Nat.one_le_two_pow
        have h2 : 2 ^ w < 2 ^ 32 := Nat.pow_lt_pow_right (by omega) hw
        simp only [BitVec.toNat_sub, BitVec.toNat_shiftLeft, BitVec.toNat_ofNat]
        norm_num
        rw [Nat.one_shiftLeft]
        norm_num at h2
        omega
      rw [e, BitVec.getLsbD_ofNat, Nat.testBit_two_pow_sub_one]
      simp [hj]
    · have e : (1#32 <<< w) = 0#32 := BitVec.shiftLeft_eq_zero (by omega)
      rw [e]
      have : (0#32 - 1#32) = BitVec.allOnes 32 := by decide
      rw [this, BitVec.getLsbD_allOnes]
      simp only [decide_eq_decide]; omega
  rw [Field.mask, BitVec.getLsbD_shiftLeft]
  by_cases h : i < f.shift
  · simp [h]
  · rw [key f.width (i - f.shift) (by omega)]
    simp only [hi, decide_true, Bool.true_and, h, decide_false, Bool.not_false]
    simp only [decide_eq_decide]; omega

theorem putField_getLsbD (v n : Word) (f : Field) (i : Nat) (hi : i < 32) :
    (putField v f n).getLsbD i = if f.mask.getLsbD i then (n <<< f.shift).getLsbD i else v.getLsbD i := by
  cases hm : f.mask.getLsbD i <;> simp [putField, hm, hi, -BitVec.getLsbD_eq_getElem]

/-- Writing a field leaves every bit outside it. -/
theorem putField_outside (v n : Word) (f : Field) (m : Word) (h : f.mask &&& m = 0#32) :
    putField v f n &&& m = v &&& m := by
  rw [and_mask_eq_iff]
  intro i hi hm
  have hz := (and_mask_eq_zero_iff f.mask m).1 h i hi hm
  rw [putField_getLsbD _ _ _ _ hi, hz]; simp

/-- Words that agree under a mask still do after the same field write. -/
theorem putField_congr (x y n : Word) (f : Field) (m : Word) (h : x &&& m = y &&& m) :
    putField x f n &&& m = putField y f n &&& m := by
  rw [and_mask_eq_iff] at h ⊢
  intro i hi hm
  rw [putField_getLsbD _ _ _ _ hi, putField_getLsbD _ _ _ _ hi, h i hi hm]

/-- A field is a function of the bits of its mask. -/
theorem getField_congr (x y : Word) (f : Field) (h : x &&& f.mask = y &&& f.mask) :
    getField x f = getField y f := by
  simp [getField, h]

/-- A field of a word is a function of any mask that contains the field's. -/
theorem getField_congr_of_sub (x y m : Word) (f : Field) (h : x &&& m = y &&& m)
    (hs : f.mask &&& ~~~m = 0#32) : getField x f = getField y f := by
  apply getField_congr
  rw [and_mask_eq_iff] at h ⊢
  intro i hi hm
  refine h i hi ?_
  by_contra hc
  have := (and_mask_eq_zero_iff f.mask (~~~m)).1 hs i hi (by simp [hi, hc, -BitVec.getLsbD_eq_getElem])
  rw [this] at hm; exact absurd hm (by decide)

/-- `put` truncates: the field then reads the low bits of what was put (R11, R128). -/
theorem getField_putField (v n : Word) (f : Field) (hf : f.fits = true) :
    getField (putField v f n) f = n &&& ((1#32 <<< f.width) - 1#32) := by
  have hfit : f.shift + f.width ≤ 32 := by
    simp only [Field.fits, Bool.and_eq_true, decide_eq_true_eq] at hf; exact hf.2
  have hm0 : ∀ j, j < 32 → ((1#32 <<< f.width) - 1#32).getLsbD j = decide (j < f.width) := by
    intro j hj
    have := Field.mask_getLsbD ⟨0, f.width⟩ j hj
    simpa [Field.mask] using this
  apply BitVec.eq_of_getLsbD_eq
  intro j hj
  simp only [getField, BitVec.getLsbD_ushiftRight, BitVec.getLsbD_and]
  rw [hm0 j hj]
  by_cases hlt : f.shift + j < 32
  · rw [Field.mask_getLsbD _ _ hlt, putField_getLsbD _ _ _ _ hlt, Field.mask_getLsbD _ _ hlt]
    by_cases hw : j < f.width
    · simp [hw, hlt, -BitVec.getLsbD_eq_getElem]
    · simp [hw]
  · have : ¬ j < f.width := by omega
    simp [this, BitVec.getLsbD_of_ge _ _ (Nat.le_of_not_lt hlt)]

/-- A value that fits reads back (R204). -/
theorem getField_putField_of_lt (v n : Word) (f : Field) (hf : f.fits = true)
    (hn : n.toNat < 2 ^ f.width) : getField (putField v f n) f = n := by
  rw [getField_putField v n f hf]
  have hm0 : ∀ j, j < 32 → ((1#32 <<< f.width) - 1#32).getLsbD j = decide (j < f.width) := by
    intro j hj
    have := Field.mask_getLsbD ⟨0, f.width⟩ j hj
    simpa [Field.mask] using this
  apply BitVec.eq_of_getLsbD_eq
  intro j hj
  rw [BitVec.getLsbD_and, hm0 j hj]
  by_cases hw : j < f.width
  · simp [hw]
  · have : n.getLsbD j = false := by
      rw [BitVec.getLsbD]
      exact Nat.testBit_lt_two_pow (lt_of_lt_of_le hn (Nat.pow_le_pow_right (by omega) (by omega)))
    simp [hw, this]

/-- Writing one field leaves a disjoint one. -/
theorem getField_putField_disjoint (v n : Word) (f g : Field) (h : g.mask &&& f.mask = 0#32) :
    getField (putField v g n) f = getField v f := by
  apply getField_congr
  exact putField_outside v n g f.mask h

/-! ### Access kinds and the bitwise write -/

/-- A write bit by bit (R73). -/
theorem RegMap.written_getLsbD (m : RegMap) (r : CoreReg) (old v : Word) (i : Nat) (hi : i < 32) :
    (m.written r old v).getLsbD i =
      if (m.deafMask r).getLsbD i then old.getLsbD i
      else if (m.w1cMask r).getLsbD i then old.getLsbD i && !v.getLsbD i
      else v.getLsbD i := by
  cases hd : (m.deafMask r).getLsbD i <;> cases hw : (m.w1cMask r).getLsbD i <;>
    simp [RegMap.written, hd, hw, hi, -BitVec.getLsbD_eq_getElem]

/-! ### The register file -/

@[simp] theorem CoreFile.get_ofFn (g : CoreReg → Word) (r : CoreReg)
    (h : r ≠ .verNumber ∧ r ≠ .verType ∧ r ≠ .id) : (CoreFile.ofFn g).get r = g r := by
  cases r <;> simp_all [CoreFile.get, CoreFile.ofFn]

theorem CoreFile.get_set_ne (f : CoreFile) (r q : CoreReg) (v : Word) (h : q ≠ r) :
    (f.set r v).get q = f.get q := by
  cases r <;> cases q <;> first | rfl | exact absurd rfl h

theorem CoreFile.get_set_eq (f : CoreFile) (r : CoreReg) (v : Word)
    (h : r ≠ .verNumber ∧ r ≠ .verType ∧ r ≠ .id) : (f.set r v).get r = v := by
  cases r <;> first | rfl | simp at h

/-- With nothing held, a reset domain covers nothing (R276). -/
theorem SrstDomain.mask_zero (d : SrstDomain) (t : SrstTarget) : d.mask 0#32 t = 0#32 := by
  cases d with
  | reference => rfl
  | custom rows =>
    have : ∀ (acc : Word), rows.foldl (fun acc c =>
        if bitAt 0#32 c.bit && (c.target == t) then acc ||| c.mask else acc) acc = acc := by
      induction rows with
      | nil => intro acc; rfl
      | cons c cs ih => intro acc; simp only [List.foldl_cons]; simp [bitAt]
    exact this 0#32

@[simp] theorem Cfg.fillMask_zero (c : Cfg) (r : CoreReg) : c.fillMask 0#32 r = 0#32 := by
  simp [Cfg.fillMask, SrstDomain.mask_zero]

/-- With nothing held, a reset fill changes nothing (R276). -/
theorem CoreFile.resetFilled_zero (f fill : CoreFile) (c : Cfg) : f.resetFilled c 0#32 fill = f := by
  simp [CoreFile.resetFilled, CoreFile.ofFn, CoreFile.get]

/-- SRST_CTRL is in no reset domain (R277). -/
@[simp] theorem CoreFile.resetFilled_srstCtrl (f fill : CoreFile) (c : Cfg) (held : Word) :
    (f.resetFilled c held fill).srstCtrl = f.srstCtrl := by
  simp [CoreFile.resetFilled, CoreFile.ofFn, CoreFile.get, Cfg.fillMask, RegMap.coverable]

@[simp] theorem CoreFile.driven_srstCtrl (f : CoreFile) (m : RegMap) (h : HwStep) :
    (f.driven m h).srstCtrl = f.srstCtrl := rfl

/-- A raw offset names a register that exists and has that offset (R75). -/
theorem Cfg.regAt_some (c : Cfg) (off : Word) (r : CoreReg) (h : c.regAt off = some r) :
    c.hasReg r = true ∧ c.map.offsetOf r = off := by
  have := List.find?_some h
  simpa using this

/-- On a well-formed map the offset of an existing register names it (R117 a). -/
theorem Cfg.regAt_offsetOf (c : Cfg) (hwf : c.wf = true) (r : CoreReg) (hr : c.hasReg r = true) :
    c.regAt (c.map.offsetOf r) = some r := by
  have hnd : (CoreReg.all.map c.map.offsetOf).Nodup := by
    simp only [Cfg.wf, RegMap.wf, Bool.and_eq_true, RegMap.wfOffsets, decide_eq_true_eq] at hwf
    simp only [and_assoc] at hwf
    exact hwf.2.1
  have hinj := List.inj_on_of_nodup_map hnd
  have hmem : ∀ q : CoreReg, q ∈ CoreReg.all := by intro q; cases q <;> decide
  cases hf : c.regAt (c.map.offsetOf r) with
  | none =>
    have := List.find?_eq_none.1 hf r (hmem r)
    simp [hr] at this
  | some q =>
    have := (Cfg.regAt_some c _ q hf).2
    rw [hinj (hmem q) (hmem r) this]

end Sys2Proof
end

