-- ==== Sys2Proof/Laws/State.lean ====
section
/-! SUPPORT. One lemma per field of State per update, each true by rfl, and the same for the observers
(register content, held reset bits, hot-plug-detect activity) that an update does not touch. -/

namespace Sys2Proof.Machine

section withB
variable (s : State) (v : Word)

@[simp] theorem State.withB_attached : (s.withB v).attached = s.attached := rfl
@[simp] theorem State.withB_base : (s.withB v).base = s.base := rfl
@[simp] theorem State.withB_cfg : (s.withB v).cfg = s.cfg := rfl
@[simp] theorem State.withB_xA : (s.withB v).xA = s.xA := rfl
@[simp] theorem State.withB_xB : (s.withB v).xB = v := rfl
@[simp] theorem State.withB_xT : (s.withB v).xT = s.xT := rfl
@[simp] theorem State.withB_xM : (s.withB v).xM = s.xM := rfl
@[simp] theorem State.withB_xR : (s.withB v).xR = s.xR := rfl
@[simp] theorem State.withB_deadline : (s.withB v).deadline = s.deadline := rfl
@[simp] theorem State.withB_status : (s.withB v).status = s.status := rfl
@[simp] theorem State.withB_pc : (s.withB v).pc = s.pc := rfl
@[simp] theorem State.withB_retStack : (s.withB v).retStack = s.retStack := rfl
@[simp] theorem State.withB_verstr : (s.withB v).verstr = s.verstr := rfl
@[simp] theorem State.withB_version : (s.withB v).version = s.version := rfl
@[simp] theorem State.withB_core : (s.withB v).core = s.core := rfl
@[simp] theorem State.withB_phycr4 : (s.withB v).phycr4 = s.phycr4 := rfl
@[simp] theorem State.withB_auxReadyAt : (s.withB v).auxReadyAt = s.auxReadyAt := rfl
@[simp] theorem State.withB_cpEvent : (s.withB v).cpEvent = s.cpEvent := rfl
@[simp] theorem State.withB_now : (s.withB v).now = s.now := rfl
@[simp] theorem State.withB_trace : (s.withB v).trace = s.trace := rfl
@[simp] theorem State.withB_host : (s.withB v).host = s.host := rfl
@[simp] theorem State.withB_lines : (s.withB v).lines = s.lines := rfl
@[simp] theorem State.withB_envScript : (s.withB v).envScript = s.envScript := rfl
@[simp] theorem State.withB_envTick : (s.withB v).envTick = s.envTick := rfl
@[simp] theorem State.withB_held : (s.withB v).held = s.held := rfl
@[simp] theorem State.withB_hpdActive : (s.withB v).hpdActive = s.hpdActive := rfl
@[simp] theorem State.withB_coreWord (q : CoreReg) : (s.withB v).coreWord q = s.coreWord q := rfl

end withB

section withT
variable (s : State) (v : Word)

@[simp] theorem State.withT_attached : (s.withT v).attached = s.attached := rfl
@[simp] theorem State.withT_base : (s.withT v).base = s.base := rfl
@[simp] theorem State.withT_cfg : (s.withT v).cfg = s.cfg := rfl
@[simp] theorem State.withT_xA : (s.withT v).xA = s.xA := rfl
@[simp] theorem State.withT_xB : (s.withT v).xB = s.xB := rfl
@[simp] theorem State.withT_xT : (s.withT v).xT = v := rfl
@[simp] theorem State.withT_xM : (s.withT v).xM = s.xM := rfl
@[simp] theorem State.withT_xR : (s.withT v).xR = s.xR := rfl
@[simp] theorem State.withT_deadline : (s.withT v).deadline = s.deadline := rfl
@[simp] theorem State.withT_status : (s.withT v).status = s.status := rfl
@[simp] theorem State.withT_pc : (s.withT v).pc = s.pc := rfl
@[simp] theorem State.withT_retStack : (s.withT v).retStack = s.retStack := rfl
@[simp] theorem State.withT_verstr : (s.withT v).verstr = s.verstr := rfl
@[simp] theorem State.withT_version : (s.withT v).version = s.version := rfl
@[simp] theorem State.withT_core : (s.withT v).core = s.core := rfl
@[simp] theorem State.withT_phycr4 : (s.withT v).phycr4 = s.phycr4 := rfl
@[simp] theorem State.withT_auxReadyAt : (s.withT v).auxReadyAt = s.auxReadyAt := rfl
@[simp] theorem State.withT_cpEvent : (s.withT v).cpEvent = s.cpEvent := rfl
@[simp] theorem State.withT_now : (s.withT v).now = s.now := rfl
@[simp] theorem State.withT_trace : (s.withT v).trace = s.trace := rfl
@[simp] theorem State.withT_host : (s.withT v).host = s.host := rfl
@[simp] theorem State.withT_lines : (s.withT v).lines = s.lines := rfl
@[simp] theorem State.withT_envScript : (s.withT v).envScript = s.envScript := rfl
@[simp] theorem State.withT_envTick : (s.withT v).envTick = s.envTick := rfl
@[simp] theorem State.withT_held : (s.withT v).held = s.held := rfl
@[simp] theorem State.withT_hpdActive : (s.withT v).hpdActive = s.hpdActive := rfl
@[simp] theorem State.withT_coreWord (q : CoreReg) : (s.withT v).coreWord q = s.coreWord q := rfl

end withT

section withM
variable (s : State) (v : Word)

@[simp] theorem State.withM_attached : (s.withM v).attached = s.attached := rfl
@[simp] theorem State.withM_base : (s.withM v).base = s.base := rfl
@[simp] theorem State.withM_cfg : (s.withM v).cfg = s.cfg := rfl
@[simp] theorem State.withM_xA : (s.withM v).xA = s.xA := rfl
@[simp] theorem State.withM_xB : (s.withM v).xB = s.xB := rfl
@[simp] theorem State.withM_xT : (s.withM v).xT = s.xT := rfl
@[simp] theorem State.withM_xM : (s.withM v).xM = v := rfl
@[simp] theorem State.withM_xR : (s.withM v).xR = s.xR := rfl
@[simp] theorem State.withM_deadline : (s.withM v).deadline = s.deadline := rfl
@[simp] theorem State.withM_status : (s.withM v).status = s.status := rfl
@[simp] theorem State.withM_pc : (s.withM v).pc = s.pc := rfl
@[simp] theorem State.withM_retStack : (s.withM v).retStack = s.retStack := rfl
@[simp] theorem State.withM_verstr : (s.withM v).verstr = s.verstr := rfl
@[simp] theorem State.withM_version : (s.withM v).version = s.version := rfl
@[simp] theorem State.withM_core : (s.withM v).core = s.core := rfl
@[simp] theorem State.withM_phycr4 : (s.withM v).phycr4 = s.phycr4 := rfl
@[simp] theorem State.withM_auxReadyAt : (s.withM v).auxReadyAt = s.auxReadyAt := rfl
@[simp] theorem State.withM_cpEvent : (s.withM v).cpEvent = s.cpEvent := rfl
@[simp] theorem State.withM_now : (s.withM v).now = s.now := rfl
@[simp] theorem State.withM_trace : (s.withM v).trace = s.trace := rfl
@[simp] theorem State.withM_host : (s.withM v).host = s.host := rfl
@[simp] theorem State.withM_lines : (s.withM v).lines = s.lines := rfl
@[simp] theorem State.withM_envScript : (s.withM v).envScript = s.envScript := rfl
@[simp] theorem State.withM_envTick : (s.withM v).envTick = s.envTick := rfl
@[simp] theorem State.withM_held : (s.withM v).held = s.held := rfl
@[simp] theorem State.withM_hpdActive : (s.withM v).hpdActive = s.hpdActive := rfl
@[simp] theorem State.withM_coreWord (q : CoreReg) : (s.withM v).coreWord q = s.coreWord q := rfl

end withM

section withDeadline
variable (s : State) (d : Nat)

@[simp] theorem State.withDeadline_attached : (s.withDeadline d).attached = s.attached := rfl
@[simp] theorem State.withDeadline_base : (s.withDeadline d).base = s.base := rfl
@[simp] theorem State.withDeadline_cfg : (s.withDeadline d).cfg = s.cfg := rfl
@[simp] theorem State.withDeadline_xA : (s.withDeadline d).xA = s.xA := rfl
@[simp] theorem State.withDeadline_xB : (s.withDeadline d).xB = s.xB := rfl
@[simp] theorem State.withDeadline_xT : (s.withDeadline d).xT = s.xT := rfl
@[simp] theorem State.withDeadline_xM : (s.withDeadline d).xM = s.xM := rfl
@[simp] theorem State.withDeadline_xR : (s.withDeadline d).xR = s.xR := rfl
@[simp] theorem State.withDeadline_deadline : (s.withDeadline d).deadline = d := rfl
@[simp] theorem State.withDeadline_status : (s.withDeadline d).status = s.status := rfl
@[simp] theorem State.withDeadline_pc : (s.withDeadline d).pc = s.pc := rfl
@[simp] theorem State.withDeadline_retStack : (s.withDeadline d).retStack = s.retStack := rfl
@[simp] theorem State.withDeadline_verstr : (s.withDeadline d).verstr = s.verstr := rfl
@[simp] theorem State.withDeadline_version : (s.withDeadline d).version = s.version := rfl
@[simp] theorem State.withDeadline_core : (s.withDeadline d).core = s.core := rfl
@[simp] theorem State.withDeadline_phycr4 : (s.withDeadline d).phycr4 = s.phycr4 := rfl
@[simp] theorem State.withDeadline_auxReadyAt : (s.withDeadline d).auxReadyAt = s.auxReadyAt := rfl
@[simp] theorem State.withDeadline_cpEvent : (s.withDeadline d).cpEvent = s.cpEvent := rfl
@[simp] theorem State.withDeadline_now : (s.withDeadline d).now = s.now := rfl
@[simp] theorem State.withDeadline_trace : (s.withDeadline d).trace = s.trace := rfl
@[simp] theorem State.withDeadline_host : (s.withDeadline d).host = s.host := rfl
@[simp] theorem State.withDeadline_lines : (s.withDeadline d).lines = s.lines := rfl
@[simp] theorem State.withDeadline_envScript : (s.withDeadline d).envScript = s.envScript := rfl
@[simp] theorem State.withDeadline_envTick : (s.withDeadline d).envTick = s.envTick := rfl
@[simp] theorem State.withDeadline_held : (s.withDeadline d).held = s.held := rfl
@[simp] theorem State.withDeadline_hpdActive : (s.withDeadline d).hpdActive = s.hpdActive := rfl
@[simp] theorem State.withDeadline_coreWord (q : CoreReg) : (s.withDeadline d).coreWord q = s.coreWord q := rfl

end withDeadline

section withPc
variable (s : State) (p : Pc)

@[simp] theorem State.withPc_attached : (s.withPc p).attached = s.attached := rfl
@[simp] theorem State.withPc_base : (s.withPc p).base = s.base := rfl
@[simp] theorem State.withPc_cfg : (s.withPc p).cfg = s.cfg := rfl
@[simp] theorem State.withPc_xA : (s.withPc p).xA = s.xA := rfl
@[simp] theorem State.withPc_xB : (s.withPc p).xB = s.xB := rfl
@[simp] theorem State.withPc_xT : (s.withPc p).xT = s.xT := rfl
@[simp] theorem State.withPc_xM : (s.withPc p).xM = s.xM := rfl
@[simp] theorem State.withPc_xR : (s.withPc p).xR = s.xR := rfl
@[simp] theorem State.withPc_deadline : (s.withPc p).deadline = s.deadline := rfl
@[simp] theorem State.withPc_status : (s.withPc p).status = s.status := rfl
@[simp] theorem State.withPc_pc : (s.withPc p).pc = p := rfl
@[simp] theorem State.withPc_retStack : (s.withPc p).retStack = s.retStack := rfl
@[simp] theorem State.withPc_verstr : (s.withPc p).verstr = s.verstr := rfl
@[simp] theorem State.withPc_version : (s.withPc p).version = s.version := rfl
@[simp] theorem State.withPc_core : (s.withPc p).core = s.core := rfl
@[simp] theorem State.withPc_phycr4 : (s.withPc p).phycr4 = s.phycr4 := rfl
@[simp] theorem State.withPc_auxReadyAt : (s.withPc p).auxReadyAt = s.auxReadyAt := rfl
@[simp] theorem State.withPc_cpEvent : (s.withPc p).cpEvent = s.cpEvent := rfl
@[simp] theorem State.withPc_now : (s.withPc p).now = s.now := rfl
@[simp] theorem State.withPc_trace : (s.withPc p).trace = s.trace := rfl
@[simp] theorem State.withPc_host : (s.withPc p).host = s.host := rfl
@[simp] theorem State.withPc_lines : (s.withPc p).lines = s.lines := rfl
@[simp] theorem State.withPc_envScript : (s.withPc p).envScript = s.envScript := rfl
@[simp] theorem State.withPc_envTick : (s.withPc p).envTick = s.envTick := rfl
@[simp] theorem State.withPc_held : (s.withPc p).held = s.held := rfl
@[simp] theorem State.withPc_hpdActive : (s.withPc p).hpdActive = s.hpdActive := rfl
@[simp] theorem State.withPc_coreWord (q : CoreReg) : (s.withPc p).coreWord q = s.coreWord q := rfl

end withPc

section withNow
variable (s : State) (t : Nat)

@[simp] theorem State.withNow_attached : (s.withNow t).attached = s.attached := rfl
@[simp] theorem State.withNow_base : (s.withNow t).base = s.base := rfl
@[simp] theorem State.withNow_cfg : (s.withNow t).cfg = s.cfg := rfl
@[simp] theorem State.withNow_xA : (s.withNow t).xA = s.xA := rfl
@[simp] theorem State.withNow_xB : (s.withNow t).xB = s.xB := rfl
@[simp] theorem State.withNow_xT : (s.withNow t).xT = s.xT := rfl
@[simp] theorem State.withNow_xM : (s.withNow t).xM = s.xM := rfl
@[simp] theorem State.withNow_xR : (s.withNow t).xR = s.xR := rfl
@[simp] theorem State.withNow_deadline : (s.withNow t).deadline = s.deadline := rfl
@[simp] theorem State.withNow_status : (s.withNow t).status = s.status := rfl
@[simp] theorem State.withNow_pc : (s.withNow t).pc = s.pc := rfl
@[simp] theorem State.withNow_retStack : (s.withNow t).retStack = s.retStack := rfl
@[simp] theorem State.withNow_verstr : (s.withNow t).verstr = s.verstr := rfl
@[simp] theorem State.withNow_version : (s.withNow t).version = s.version := rfl
@[simp] theorem State.withNow_core : (s.withNow t).core = s.core := rfl
@[simp] theorem State.withNow_phycr4 : (s.withNow t).phycr4 = s.phycr4 := rfl
@[simp] theorem State.withNow_auxReadyAt : (s.withNow t).auxReadyAt = s.auxReadyAt := rfl
@[simp] theorem State.withNow_cpEvent : (s.withNow t).cpEvent = s.cpEvent := rfl
@[simp] theorem State.withNow_now : (s.withNow t).now = t := rfl
@[simp] theorem State.withNow_trace : (s.withNow t).trace = s.trace := rfl
@[simp] theorem State.withNow_host : (s.withNow t).host = s.host := rfl
@[simp] theorem State.withNow_lines : (s.withNow t).lines = s.lines := rfl
@[simp] theorem State.withNow_envScript : (s.withNow t).envScript = s.envScript := rfl
@[simp] theorem State.withNow_envTick : (s.withNow t).envTick = s.envTick := rfl
@[simp] theorem State.withNow_held : (s.withNow t).held = s.held := rfl
@[simp] theorem State.withNow_hpdActive : (s.withNow t).hpdActive = s.hpdActive := rfl
@[simp] theorem State.withNow_coreWord (q : CoreReg) : (s.withNow t).coreWord q = s.coreWord q := rfl

end withNow

section withHost
variable (s : State) (r : List HostAction)

@[simp] theorem State.withHost_attached : (s.withHost r).attached = s.attached := rfl
@[simp] theorem State.withHost_base : (s.withHost r).base = s.base := rfl
@[simp] theorem State.withHost_cfg : (s.withHost r).cfg = s.cfg := rfl
@[simp] theorem State.withHost_xA : (s.withHost r).xA = s.xA := rfl
@[simp] theorem State.withHost_xB : (s.withHost r).xB = s.xB := rfl
@[simp] theorem State.withHost_xT : (s.withHost r).xT = s.xT := rfl
@[simp] theorem State.withHost_xM : (s.withHost r).xM = s.xM := rfl
@[simp] theorem State.withHost_xR : (s.withHost r).xR = s.xR := rfl
@[simp] theorem State.withHost_deadline : (s.withHost r).deadline = s.deadline := rfl
@[simp] theorem State.withHost_status : (s.withHost r).status = s.status := rfl
@[simp] theorem State.withHost_pc : (s.withHost r).pc = s.pc := rfl
@[simp] theorem State.withHost_retStack : (s.withHost r).retStack = s.retStack := rfl
@[simp] theorem State.withHost_verstr : (s.withHost r).verstr = s.verstr := rfl
@[simp] theorem State.withHost_version : (s.withHost r).version = s.version := rfl
@[simp] theorem State.withHost_core : (s.withHost r).core = s.core := rfl
@[simp] theorem State.withHost_phycr4 : (s.withHost r).phycr4 = s.phycr4 := rfl
@[simp] theorem State.withHost_auxReadyAt : (s.withHost r).auxReadyAt = s.auxReadyAt := rfl
@[simp] theorem State.withHost_cpEvent : (s.withHost r).cpEvent = s.cpEvent := rfl
@[simp] theorem State.withHost_now : (s.withHost r).now = s.now := rfl
@[simp] theorem State.withHost_trace : (s.withHost r).trace = s.trace := rfl
@[simp] theorem State.withHost_host : (s.withHost r).host = r := rfl
@[simp] theorem State.withHost_lines : (s.withHost r).lines = s.lines := rfl
@[simp] theorem State.withHost_envScript : (s.withHost r).envScript = s.envScript := rfl
@[simp] theorem State.withHost_envTick : (s.withHost r).envTick = s.envTick := rfl
@[simp] theorem State.withHost_held : (s.withHost r).held = s.held := rfl
@[simp] theorem State.withHost_hpdActive : (s.withHost r).hpdActive = s.hpdActive := rfl
@[simp] theorem State.withHost_coreWord (q : CoreReg) : (s.withHost r).coreWord q = s.coreWord q := rfl

end withHost

section storePhycr
variable (s : State) (v : Word)

@[simp] theorem State.storePhycr_attached : (s.storePhycr v).attached = s.attached := rfl
@[simp] theorem State.storePhycr_base : (s.storePhycr v).base = s.base := rfl
@[simp] theorem State.storePhycr_cfg : (s.storePhycr v).cfg = s.cfg := rfl
@[simp] theorem State.storePhycr_xA : (s.storePhycr v).xA = s.xA := rfl
@[simp] theorem State.storePhycr_xB : (s.storePhycr v).xB = s.xB := rfl
@[simp] theorem State.storePhycr_xT : (s.storePhycr v).xT = s.xT := rfl
@[simp] theorem State.storePhycr_xM : (s.storePhycr v).xM = s.xM := rfl
@[simp] theorem State.storePhycr_xR : (s.storePhycr v).xR = s.xR := rfl
@[simp] theorem State.storePhycr_deadline : (s.storePhycr v).deadline = s.deadline := rfl
@[simp] theorem State.storePhycr_status : (s.storePhycr v).status = s.status := rfl
@[simp] theorem State.storePhycr_pc : (s.storePhycr v).pc = s.pc := rfl
@[simp] theorem State.storePhycr_retStack : (s.storePhycr v).retStack = s.retStack := rfl
@[simp] theorem State.storePhycr_verstr : (s.storePhycr v).verstr = s.verstr := rfl
@[simp] theorem State.storePhycr_version : (s.storePhycr v).version = s.version := rfl
@[simp] theorem State.storePhycr_core : (s.storePhycr v).core = s.core := rfl
@[simp] theorem State.storePhycr_phycr4 : (s.storePhycr v).phycr4 = v := rfl
@[simp] theorem State.storePhycr_auxReadyAt : (s.storePhycr v).auxReadyAt = s.auxReadyAt := rfl
@[simp] theorem State.storePhycr_cpEvent : (s.storePhycr v).cpEvent = s.cpEvent := rfl
@[simp] theorem State.storePhycr_now : (s.storePhycr v).now = s.now := rfl
@[simp] theorem State.storePhycr_trace : (s.storePhycr v).trace = s.trace := rfl
@[simp] theorem State.storePhycr_host : (s.storePhycr v).host = s.host := rfl
@[simp] theorem State.storePhycr_lines : (s.storePhycr v).lines = s.lines := rfl
@[simp] theorem State.storePhycr_envScript : (s.storePhycr v).envScript = s.envScript := rfl
@[simp] theorem State.storePhycr_envTick : (s.storePhycr v).envTick = s.envTick := rfl
@[simp] theorem State.storePhycr_held : (s.storePhycr v).held = s.held := rfl
@[simp] theorem State.storePhycr_hpdActive : (s.storePhycr v).hpdActive = s.hpdActive := rfl
@[simp] theorem State.storePhycr_coreWord (q : CoreReg) : (s.storePhycr v).coreWord q = s.coreWord q := rfl

end storePhycr

section done
variable (s : State) (e : Event)

@[simp] theorem State.done_attached : (s.done e).attached = s.attached := rfl
@[simp] theorem State.done_base : (s.done e).base = s.base := rfl
@[simp] theorem State.done_cfg : (s.done e).cfg = s.cfg := rfl
@[simp] theorem State.done_xA : (s.done e).xA = s.xA := rfl
@[simp] theorem State.done_xB : (s.done e).xB = s.xB := rfl
@[simp] theorem State.done_xT : (s.done e).xT = s.xT := rfl
@[simp] theorem State.done_xM : (s.done e).xM = s.xM := rfl
@[simp] theorem State.done_xR : (s.done e).xR = s.xR := rfl
@[simp] theorem State.done_deadline : (s.done e).deadline = s.deadline := rfl
@[simp] theorem State.done_status : (s.done e).status = s.status := rfl
@[simp] theorem State.done_pc : (s.done e).pc = s.pc.next := rfl
@[simp] theorem State.done_retStack : (s.done e).retStack = s.retStack := rfl
@[simp] theorem State.done_verstr : (s.done e).verstr = s.verstr := rfl
@[simp] theorem State.done_version : (s.done e).version = s.version := rfl
@[simp] theorem State.done_core : (s.done e).core = s.core := rfl
@[simp] theorem State.done_phycr4 : (s.done e).phycr4 = s.phycr4 := rfl
@[simp] theorem State.done_auxReadyAt : (s.done e).auxReadyAt = s.auxReadyAt := rfl
@[simp] theorem State.done_cpEvent : (s.done e).cpEvent = s.cpEvent := rfl
@[simp] theorem State.done_now : (s.done e).now = s.now := rfl
@[simp] theorem State.done_trace : (s.done e).trace = s.trace ++ [e] := rfl
@[simp] theorem State.done_host : (s.done e).host = s.host := rfl
@[simp] theorem State.done_lines : (s.done e).lines =
    s.lines ++ [⟨s.now, s.trace.length + 1, s.irqOut, s.cpIrqOut⟩] := by
  rw [show (s.done e).lines = s.lines ++ [⟨s.now, (s.trace ++ [e]).length, s.irqOut, s.cpIrqOut⟩] from rfl]; simp
@[simp] theorem State.done_envScript : (s.done e).envScript = s.envScript := rfl
@[simp] theorem State.done_envTick : (s.done e).envTick = s.envTick := rfl
@[simp] theorem State.done_held : (s.done e).held = s.held := rfl
@[simp] theorem State.done_hpdActive : (s.done e).hpdActive = s.hpdActive := rfl
@[simp] theorem State.done_coreWord (q : CoreReg) : (s.done e).coreWord q = s.coreWord q := rfl

end done

section finish
variable (s : State) (st : Status) (v : Word)

@[simp] theorem State.finish_attached : (s.finish st v).attached = s.attached := rfl
@[simp] theorem State.finish_base : (s.finish st v).base = s.base := rfl
@[simp] theorem State.finish_cfg : (s.finish st v).cfg = s.cfg := rfl
@[simp] theorem State.finish_xA : (s.finish st v).xA = s.xA := rfl
@[simp] theorem State.finish_xB : (s.finish st v).xB = s.xB := rfl
@[simp] theorem State.finish_xT : (s.finish st v).xT = s.xT := rfl
@[simp] theorem State.finish_xM : (s.finish st v).xM = s.xM := rfl
@[simp] theorem State.finish_xR : (s.finish st v).xR = v := rfl
@[simp] theorem State.finish_deadline : (s.finish st v).deadline = s.deadline := rfl
@[simp] theorem State.finish_status : (s.finish st v).status = st := rfl
@[simp] theorem State.finish_pc : (s.finish st v).pc = .idle := rfl
@[simp] theorem State.finish_retStack : (s.finish st v).retStack = s.retStack := rfl
@[simp] theorem State.finish_verstr : (s.finish st v).verstr = s.verstr := rfl
@[simp] theorem State.finish_version : (s.finish st v).version = s.version := rfl
@[simp] theorem State.finish_core : (s.finish st v).core = s.core := rfl
@[simp] theorem State.finish_phycr4 : (s.finish st v).phycr4 = s.phycr4 := rfl
@[simp] theorem State.finish_auxReadyAt : (s.finish st v).auxReadyAt = s.auxReadyAt := rfl
@[simp] theorem State.finish_cpEvent : (s.finish st v).cpEvent = s.cpEvent := rfl
@[simp] theorem State.finish_now : (s.finish st v).now = s.now := rfl
@[simp] theorem State.finish_trace : (s.finish st v).trace = s.trace ++ [.ret st v] := rfl
@[simp] theorem State.finish_host : (s.finish st v).host = s.host := rfl
@[simp] theorem State.finish_lines : (s.finish st v).lines =
    s.lines ++ [⟨s.now, s.trace.length + 1, s.irqOut, s.cpIrqOut⟩] := by
  rw [show (s.finish st v).lines = s.lines ++ [⟨s.now, (s.trace ++ [Event.ret st v]).length, s.irqOut, s.cpIrqOut⟩] from rfl]
  simp
@[simp] theorem State.finish_envScript : (s.finish st v).envScript = s.envScript := rfl
@[simp] theorem State.finish_envTick : (s.finish st v).envTick = s.envTick := rfl
@[simp] theorem State.finish_held : (s.finish st v).held = s.held := rfl
@[simp] theorem State.finish_hpdActive : (s.finish st v).hpdActive = s.hpdActive := rfl
@[simp] theorem State.finish_coreWord (q : CoreReg) : (s.finish st v).coreWord q = s.coreWord q := rfl

end finish

section timeStep
variable (s : State) (e : EnvStep)

@[simp] theorem State.timeStep_attached : (s.timeStep e).attached = s.attached := rfl
@[simp] theorem State.timeStep_base : (s.timeStep e).base = s.base := rfl
@[simp] theorem State.timeStep_cfg : (s.timeStep e).cfg = s.cfg := rfl
@[simp] theorem State.timeStep_xA : (s.timeStep e).xA = s.xA := rfl
@[simp] theorem State.timeStep_xB : (s.timeStep e).xB = s.xB := rfl
@[simp] theorem State.timeStep_xT : (s.timeStep e).xT = s.xT := rfl
@[simp] theorem State.timeStep_xM : (s.timeStep e).xM = s.xM := rfl
@[simp] theorem State.timeStep_xR : (s.timeStep e).xR = s.xR := rfl
@[simp] theorem State.timeStep_deadline : (s.timeStep e).deadline = s.deadline := rfl
@[simp] theorem State.timeStep_status : (s.timeStep e).status = s.status := rfl
@[simp] theorem State.timeStep_pc : (s.timeStep e).pc = s.pc := rfl
@[simp] theorem State.timeStep_retStack : (s.timeStep e).retStack = s.retStack := rfl
@[simp] theorem State.timeStep_verstr : (s.timeStep e).verstr = s.verstr := rfl
@[simp] theorem State.timeStep_version : (s.timeStep e).version = s.version := rfl
@[simp] theorem State.timeStep_core : (s.timeStep e).core = s.core := rfl
@[simp] theorem State.timeStep_phycr4 : (s.timeStep e).phycr4 = s.phycr4 := rfl
@[simp] theorem State.timeStep_auxReadyAt : (s.timeStep e).auxReadyAt = s.auxReadyAt := rfl
@[simp] theorem State.timeStep_cpEvent : (s.timeStep e).cpEvent = s.cpEvent := rfl
@[simp] theorem State.timeStep_now : (s.timeStep e).now = s.now + e.dt := rfl
@[simp] theorem State.timeStep_trace : (s.timeStep e).trace = s.trace := rfl
@[simp] theorem State.timeStep_host : (s.timeStep e).host = s.host := rfl
@[simp] theorem State.timeStep_lines : (s.timeStep e).lines = s.lines := rfl
@[simp] theorem State.timeStep_envScript : (s.timeStep e).envScript = s.envScript.tail := rfl
@[simp] theorem State.timeStep_envTick : (s.timeStep e).envTick = s.envTick + 1 := rfl
@[simp] theorem State.timeStep_held : (s.timeStep e).held = s.held := rfl
@[simp] theorem State.timeStep_hpdActive : (s.timeStep e).hpdActive = s.hpdActive := rfl
@[simp] theorem State.timeStep_coreWord (q : CoreReg) : (s.timeStep e).coreWord q = s.coreWord q := rfl

end timeStep

section resetFilled
variable (s : State) (f : ResetFill)

@[simp] theorem State.resetFilled_attached : (s.resetFilled f).attached = s.attached := rfl
@[simp] theorem State.resetFilled_base : (s.resetFilled f).base = s.base := rfl
@[simp] theorem State.resetFilled_cfg : (s.resetFilled f).cfg = s.cfg := rfl
@[simp] theorem State.resetFilled_xA : (s.resetFilled f).xA = s.xA := rfl
@[simp] theorem State.resetFilled_xB : (s.resetFilled f).xB = s.xB := rfl
@[simp] theorem State.resetFilled_xT : (s.resetFilled f).xT = s.xT := rfl
@[simp] theorem State.resetFilled_xM : (s.resetFilled f).xM = s.xM := rfl
@[simp] theorem State.resetFilled_xR : (s.resetFilled f).xR = s.xR := rfl
@[simp] theorem State.resetFilled_deadline : (s.resetFilled f).deadline = s.deadline := rfl
@[simp] theorem State.resetFilled_status : (s.resetFilled f).status = s.status := rfl
@[simp] theorem State.resetFilled_pc : (s.resetFilled f).pc = s.pc := rfl
@[simp] theorem State.resetFilled_retStack : (s.resetFilled f).retStack = s.retStack := rfl
@[simp] theorem State.resetFilled_verstr : (s.resetFilled f).verstr = s.verstr := rfl
@[simp] theorem State.resetFilled_version : (s.resetFilled f).version = s.version := rfl
@[simp] theorem State.resetFilled_core : (s.resetFilled f).core = s.core.resetFilled s.cfg s.held f.core := rfl
@[simp] theorem State.resetFilled_phycr4 : (s.resetFilled f).phycr4 = blend (s.cfg.srstDomain.mask s.held .phycr) s.phycr4 f.phycr4 := rfl
@[simp] theorem State.resetFilled_auxReadyAt : (s.resetFilled f).auxReadyAt = s.auxReadyAt := rfl
@[simp] theorem State.resetFilled_cpEvent : (s.resetFilled f).cpEvent = s.cpEvent := rfl
@[simp] theorem State.resetFilled_now : (s.resetFilled f).now = s.now := rfl
@[simp] theorem State.resetFilled_trace : (s.resetFilled f).trace = s.trace := rfl
@[simp] theorem State.resetFilled_host : (s.resetFilled f).host = s.host := rfl
@[simp] theorem State.resetFilled_lines : (s.resetFilled f).lines = s.lines := rfl
@[simp] theorem State.resetFilled_envScript : (s.resetFilled f).envScript = s.envScript := rfl
@[simp] theorem State.resetFilled_envTick : (s.resetFilled f).envTick = s.envTick := rfl

end resetFilled

section hwDriven
variable (s : State) (h : HwStep)

@[simp] theorem State.hwDriven_attached : (s.hwDriven h).attached = s.attached := rfl
@[simp] theorem State.hwDriven_base : (s.hwDriven h).base = s.base := rfl
@[simp] theorem State.hwDriven_cfg : (s.hwDriven h).cfg = s.cfg := rfl
@[simp] theorem State.hwDriven_xA : (s.hwDriven h).xA = s.xA := rfl
@[simp] theorem State.hwDriven_xB : (s.hwDriven h).xB = s.xB := rfl
@[simp] theorem State.hwDriven_xT : (s.hwDriven h).xT = s.xT := rfl
@[simp] theorem State.hwDriven_xM : (s.hwDriven h).xM = s.xM := rfl
@[simp] theorem State.hwDriven_xR : (s.hwDriven h).xR = s.xR := rfl
@[simp] theorem State.hwDriven_deadline : (s.hwDriven h).deadline = s.deadline := rfl
@[simp] theorem State.hwDriven_status : (s.hwDriven h).status = s.status := rfl
@[simp] theorem State.hwDriven_pc : (s.hwDriven h).pc = s.pc := rfl
@[simp] theorem State.hwDriven_retStack : (s.hwDriven h).retStack = s.retStack := rfl
@[simp] theorem State.hwDriven_verstr : (s.hwDriven h).verstr = s.verstr := rfl
@[simp] theorem State.hwDriven_version : (s.hwDriven h).version = s.version := rfl
@[simp] theorem State.hwDriven_core : (s.hwDriven h).core = s.core.driven s.cfg.map h := rfl
@[simp] theorem State.hwDriven_phycr4 : (s.hwDriven h).phycr4 = s.phycr4 := rfl
@[simp] theorem State.hwDriven_auxReadyAt : (s.hwDriven h).auxReadyAt = s.auxReadyAt := rfl
@[simp] theorem State.hwDriven_cpEvent : (s.hwDriven h).cpEvent = h.cpEvent := rfl
@[simp] theorem State.hwDriven_now : (s.hwDriven h).now = s.now := rfl
@[simp] theorem State.hwDriven_trace : (s.hwDriven h).trace = s.trace := rfl
@[simp] theorem State.hwDriven_host : (s.hwDriven h).host = s.host := rfl
@[simp] theorem State.hwDriven_lines : (s.hwDriven h).lines = s.lines := rfl
@[simp] theorem State.hwDriven_envScript : (s.hwDriven h).envScript = s.envScript := rfl
@[simp] theorem State.hwDriven_envTick : (s.hwDriven h).envTick = s.envTick := rfl

end hwDriven

section pushFrame
variable (s : State) (op : Op) (a b : Word)

@[simp] theorem State.pushFrame_attached : (s.pushFrame op a b).attached = s.attached := rfl
@[simp] theorem State.pushFrame_base : (s.pushFrame op a b).base = s.base := rfl
@[simp] theorem State.pushFrame_cfg : (s.pushFrame op a b).cfg = s.cfg := rfl
@[simp] theorem State.pushFrame_xA : (s.pushFrame op a b).xA = a := rfl
@[simp] theorem State.pushFrame_xB : (s.pushFrame op a b).xB = b := rfl
@[simp] theorem State.pushFrame_xT : (s.pushFrame op a b).xT = s.xT := rfl
@[simp] theorem State.pushFrame_xM : (s.pushFrame op a b).xM = s.xM := rfl
@[simp] theorem State.pushFrame_xR : (s.pushFrame op a b).xR = s.xR := rfl
@[simp] theorem State.pushFrame_deadline : (s.pushFrame op a b).deadline = s.deadline := rfl
@[simp] theorem State.pushFrame_status : (s.pushFrame op a b).status = s.status := rfl
@[simp] theorem State.pushFrame_pc : (s.pushFrame op a b).pc = .running op 0 := rfl
@[simp] theorem State.pushFrame_retStack : (s.pushFrame op a b).retStack = ⟨s.pc, s.xA, s.xB⟩ :: s.retStack := rfl
@[simp] theorem State.pushFrame_verstr : (s.pushFrame op a b).verstr = s.verstr := rfl
@[simp] theorem State.pushFrame_version : (s.pushFrame op a b).version = s.version := rfl
@[simp] theorem State.pushFrame_core : (s.pushFrame op a b).core = s.core := rfl
@[simp] theorem State.pushFrame_phycr4 : (s.pushFrame op a b).phycr4 = s.phycr4 := rfl
@[simp] theorem State.pushFrame_auxReadyAt : (s.pushFrame op a b).auxReadyAt = s.auxReadyAt := rfl
@[simp] theorem State.pushFrame_cpEvent : (s.pushFrame op a b).cpEvent = s.cpEvent := rfl
@[simp] theorem State.pushFrame_now : (s.pushFrame op a b).now = s.now := rfl
@[simp] theorem State.pushFrame_trace : (s.pushFrame op a b).trace = s.trace := rfl
@[simp] theorem State.pushFrame_host : (s.pushFrame op a b).host = s.host := rfl
@[simp] theorem State.pushFrame_lines : (s.pushFrame op a b).lines = s.lines := rfl
@[simp] theorem State.pushFrame_envScript : (s.pushFrame op a b).envScript = s.envScript := rfl
@[simp] theorem State.pushFrame_envTick : (s.pushFrame op a b).envTick = s.envTick := rfl
@[simp] theorem State.pushFrame_held : (s.pushFrame op a b).held = s.held := rfl
@[simp] theorem State.pushFrame_hpdActive : (s.pushFrame op a b).hpdActive = s.hpdActive := rfl
@[simp] theorem State.pushFrame_coreWord (q : CoreReg) : (s.pushFrame op a b).coreWord q = s.coreWord q := rfl

end pushFrame

section accept
variable (s : State) (op : Op) (a b : Word)

@[simp] theorem State.accept_attached : (s.accept op a b).attached = s.attached := rfl
@[simp] theorem State.accept_base : (s.accept op a b).base = s.base := rfl
@[simp] theorem State.accept_cfg : (s.accept op a b).cfg = s.cfg := rfl
@[simp] theorem State.accept_xA : (s.accept op a b).xA = a := rfl
@[simp] theorem State.accept_xB : (s.accept op a b).xB = b := rfl
@[simp] theorem State.accept_xT : (s.accept op a b).xT = s.xT := rfl
@[simp] theorem State.accept_xM : (s.accept op a b).xM = s.xM := rfl
@[simp] theorem State.accept_xR : (s.accept op a b).xR = s.xR := rfl
@[simp] theorem State.accept_deadline : (s.accept op a b).deadline = s.deadline := rfl
@[simp] theorem State.accept_status : (s.accept op a b).status = s.status := rfl
@[simp] theorem State.accept_pc : (s.accept op a b).pc = .running op 0 := rfl
@[simp] theorem State.accept_retStack : (s.accept op a b).retStack = s.retStack := rfl
@[simp] theorem State.accept_verstr : (s.accept op a b).verstr = s.verstr := rfl
@[simp] theorem State.accept_version : (s.accept op a b).version = s.version := rfl
@[simp] theorem State.accept_core : (s.accept op a b).core = s.core := rfl
@[simp] theorem State.accept_phycr4 : (s.accept op a b).phycr4 = s.phycr4 := rfl
@[simp] theorem State.accept_auxReadyAt : (s.accept op a b).auxReadyAt = s.auxReadyAt := rfl
@[simp] theorem State.accept_cpEvent : (s.accept op a b).cpEvent = s.cpEvent := rfl
@[simp] theorem State.accept_now : (s.accept op a b).now = s.now := rfl
@[simp] theorem State.accept_trace : (s.accept op a b).trace = s.trace := rfl
@[simp] theorem State.accept_host : (s.accept op a b).host = s.host := rfl
@[simp] theorem State.accept_lines : (s.accept op a b).lines = s.lines := rfl
@[simp] theorem State.accept_envScript : (s.accept op a b).envScript = s.envScript := rfl
@[simp] theorem State.accept_envTick : (s.accept op a b).envTick = s.envTick := rfl
@[simp] theorem State.accept_held : (s.accept op a b).held = s.held := rfl
@[simp] theorem State.accept_hpdActive : (s.accept op a b).hpdActive = s.hpdActive := rfl
@[simp] theorem State.accept_coreWord (q : CoreReg) : (s.accept op a b).coreWord q = s.coreWord q := rfl

end accept

section captureNumber
variable (s : State) (v : Word)

@[simp] theorem State.captureNumber_attached : (s.captureNumber v).attached = s.attached := rfl
@[simp] theorem State.captureNumber_base : (s.captureNumber v).base = s.base := rfl
@[simp] theorem State.captureNumber_cfg : (s.captureNumber v).cfg = s.cfg := rfl
@[simp] theorem State.captureNumber_xA : (s.captureNumber v).xA = s.xA := rfl
@[simp] theorem State.captureNumber_xB : (s.captureNumber v).xB = s.xB := rfl
@[simp] theorem State.captureNumber_xT : (s.captureNumber v).xT = s.xT := rfl
@[simp] theorem State.captureNumber_xM : (s.captureNumber v).xM = s.xM := rfl
@[simp] theorem State.captureNumber_xR : (s.captureNumber v).xR = s.xR := rfl
@[simp] theorem State.captureNumber_deadline : (s.captureNumber v).deadline = s.deadline := rfl
@[simp] theorem State.captureNumber_status : (s.captureNumber v).status = s.status := rfl
@[simp] theorem State.captureNumber_pc : (s.captureNumber v).pc = s.pc := rfl
@[simp] theorem State.captureNumber_retStack : (s.captureNumber v).retStack = s.retStack := rfl
@[simp] theorem State.captureNumber_verstr : (s.captureNumber v).verstr = verstrNumber s.verstr v := rfl
@[simp] theorem State.captureNumber_version : (s.captureNumber v).version = s.version := rfl
@[simp] theorem State.captureNumber_core : (s.captureNumber v).core = s.core := rfl
@[simp] theorem State.captureNumber_phycr4 : (s.captureNumber v).phycr4 = s.phycr4 := rfl
@[simp] theorem State.captureNumber_auxReadyAt : (s.captureNumber v).auxReadyAt = s.auxReadyAt := rfl
@[simp] theorem State.captureNumber_cpEvent : (s.captureNumber v).cpEvent = s.cpEvent := rfl
@[simp] theorem State.captureNumber_now : (s.captureNumber v).now = s.now := rfl
@[simp] theorem State.captureNumber_trace : (s.captureNumber v).trace = s.trace := rfl
@[simp] theorem State.captureNumber_host : (s.captureNumber v).host = s.host := rfl
@[simp] theorem State.captureNumber_lines : (s.captureNumber v).lines = s.lines := rfl
@[simp] theorem State.captureNumber_envScript : (s.captureNumber v).envScript = s.envScript := rfl
@[simp] theorem State.captureNumber_envTick : (s.captureNumber v).envTick = s.envTick := rfl
@[simp] theorem State.captureNumber_held : (s.captureNumber v).held = s.held := rfl
@[simp] theorem State.captureNumber_hpdActive : (s.captureNumber v).hpdActive = s.hpdActive := rfl
@[simp] theorem State.captureNumber_coreWord (q : CoreReg) : (s.captureNumber v).coreWord q = s.coreWord q := rfl

end captureNumber

section captureType
variable (s : State) (v : Word)

@[simp] theorem State.captureType_attached : (s.captureType v).attached = s.attached := rfl
@[simp] theorem State.captureType_base : (s.captureType v).base = s.base := rfl
@[simp] theorem State.captureType_cfg : (s.captureType v).cfg = s.cfg := rfl
@[simp] theorem State.captureType_xA : (s.captureType v).xA = s.xA := rfl
@[simp] theorem State.captureType_xB : (s.captureType v).xB = s.xB := rfl
@[simp] theorem State.captureType_xT : (s.captureType v).xT = s.xT := rfl
@[simp] theorem State.captureType_xM : (s.captureType v).xM = s.xM := rfl
@[simp] theorem State.captureType_xR : (s.captureType v).xR = s.xR := rfl
@[simp] theorem State.captureType_deadline : (s.captureType v).deadline = s.deadline := rfl
@[simp] theorem State.captureType_status : (s.captureType v).status = s.status := rfl
@[simp] theorem State.captureType_pc : (s.captureType v).pc = s.pc := rfl
@[simp] theorem State.captureType_retStack : (s.captureType v).retStack = s.retStack := rfl
@[simp] theorem State.captureType_verstr : (s.captureType v).verstr = verstrType s.verstr v := rfl
@[simp] theorem State.captureType_version : (s.captureType v).version = v := rfl
@[simp] theorem State.captureType_core : (s.captureType v).core = s.core := rfl
@[simp] theorem State.captureType_phycr4 : (s.captureType v).phycr4 = s.phycr4 := rfl
@[simp] theorem State.captureType_auxReadyAt : (s.captureType v).auxReadyAt = s.auxReadyAt := rfl
@[simp] theorem State.captureType_cpEvent : (s.captureType v).cpEvent = s.cpEvent := rfl
@[simp] theorem State.captureType_now : (s.captureType v).now = s.now := rfl
@[simp] theorem State.captureType_trace : (s.captureType v).trace = s.trace := rfl
@[simp] theorem State.captureType_host : (s.captureType v).host = s.host := rfl
@[simp] theorem State.captureType_lines : (s.captureType v).lines = s.lines := rfl
@[simp] theorem State.captureType_envScript : (s.captureType v).envScript = s.envScript := rfl
@[simp] theorem State.captureType_envTick : (s.captureType v).envTick = s.envTick := rfl
@[simp] theorem State.captureType_held : (s.captureType v).held = s.held := rfl
@[simp] theorem State.captureType_hpdActive : (s.captureType v).hpdActive = s.hpdActive := rfl
@[simp] theorem State.captureType_coreWord (q : CoreReg) : (s.captureType v).coreWord q = s.coreWord q := rfl

end captureType

section sampled
variable (s : State)

@[simp] theorem State.sampled_attached : s.sampled.attached = s.attached := rfl
@[simp] theorem State.sampled_base : s.sampled.base = s.base := rfl
@[simp] theorem State.sampled_cfg : s.sampled.cfg = s.cfg := rfl
@[simp] theorem State.sampled_xA : s.sampled.xA = s.xA := rfl
@[simp] theorem State.sampled_xB : s.sampled.xB = s.xB := rfl
@[simp] theorem State.sampled_xT : s.sampled.xT = s.xT := rfl
@[simp] theorem State.sampled_xM : s.sampled.xM = s.xM := rfl
@[simp] theorem State.sampled_xR : s.sampled.xR = s.xR := rfl
@[simp] theorem State.sampled_deadline : s.sampled.deadline = s.deadline := rfl
@[simp] theorem State.sampled_status : s.sampled.status = s.status := rfl
@[simp] theorem State.sampled_pc : s.sampled.pc = s.pc := rfl
@[simp] theorem State.sampled_retStack : s.sampled.retStack = s.retStack := rfl
@[simp] theorem State.sampled_verstr : s.sampled.verstr = s.verstr := rfl
@[simp] theorem State.sampled_version : s.sampled.version = s.version := rfl
@[simp] theorem State.sampled_core : s.sampled.core = s.core := rfl
@[simp] theorem State.sampled_phycr4 : s.sampled.phycr4 = s.phycr4 := rfl
@[simp] theorem State.sampled_auxReadyAt : s.sampled.auxReadyAt = s.auxReadyAt := rfl
@[simp] theorem State.sampled_cpEvent : s.sampled.cpEvent = s.cpEvent := rfl
@[simp] theorem State.sampled_now : s.sampled.now = s.now := rfl
@[simp] theorem State.sampled_trace : s.sampled.trace = s.trace := rfl
@[simp] theorem State.sampled_host : s.sampled.host = s.host := rfl
@[simp] theorem State.sampled_lines : s.sampled.lines =
    s.lines ++ [⟨s.now, s.trace.length, s.irqOut, s.cpIrqOut⟩] := rfl
@[simp] theorem State.sampled_envScript : s.sampled.envScript = s.envScript := rfl
@[simp] theorem State.sampled_envTick : s.sampled.envTick = s.envTick := rfl
@[simp] theorem State.sampled_held : s.sampled.held = s.held := rfl
@[simp] theorem State.sampled_hpdActive : s.sampled.hpdActive = s.hpdActive := rfl
@[simp] theorem State.sampled_coreWord (q : CoreReg) : s.sampled.coreWord q = s.coreWord q := rfl

end sampled

section detach
variable (s : State)

@[simp] theorem State.detach_attached : (s.detach).attached = false := rfl
@[simp] theorem State.detach_base : (s.detach).base = s.base := rfl
@[simp] theorem State.detach_cfg : (s.detach).cfg = s.cfg := rfl
@[simp] theorem State.detach_xA : (s.detach).xA = s.xA := rfl
@[simp] theorem State.detach_xB : (s.detach).xB = s.xB := rfl
@[simp] theorem State.detach_xT : (s.detach).xT = s.xT := rfl
@[simp] theorem State.detach_xM : (s.detach).xM = s.xM := rfl
@[simp] theorem State.detach_xR : (s.detach).xR = s.xR := rfl
@[simp] theorem State.detach_deadline : (s.detach).deadline = s.deadline := rfl
@[simp] theorem State.detach_status : (s.detach).status = s.status := rfl
@[simp] theorem State.detach_pc : (s.detach).pc = s.pc := rfl
@[simp] theorem State.detach_retStack : (s.detach).retStack = s.retStack := rfl
@[simp] theorem State.detach_verstr : (s.detach).verstr = s.verstr := rfl
@[simp] theorem State.detach_version : (s.detach).version = s.version := rfl
@[simp] theorem State.detach_core : (s.detach).core = s.core := rfl
@[simp] theorem State.detach_phycr4 : (s.detach).phycr4 = s.phycr4 := rfl
@[simp] theorem State.detach_auxReadyAt : (s.detach).auxReadyAt = s.auxReadyAt := rfl
@[simp] theorem State.detach_cpEvent : (s.detach).cpEvent = s.cpEvent := rfl
@[simp] theorem State.detach_now : (s.detach).now = s.now := rfl
@[simp] theorem State.detach_trace : (s.detach).trace = s.trace := rfl
@[simp] theorem State.detach_host : (s.detach).host = s.host := rfl
@[simp] theorem State.detach_lines : (s.detach).lines = s.lines := rfl
@[simp] theorem State.detach_envScript : (s.detach).envScript = s.envScript := rfl
@[simp] theorem State.detach_envTick : (s.detach).envTick = s.envTick := rfl
@[simp] theorem State.detach_held : (s.detach).held = s.held := rfl
@[simp] theorem State.detach_hpdActive : (s.detach).hpdActive = s.hpdActive := rfl
@[simp] theorem State.detach_coreWord (q : CoreReg) : (s.detach).coreWord q = s.coreWord q := rfl

end detach

section withStored
variable (s : State) (r : CoreReg) (w : Word) (n : Nat)

@[simp] theorem State.withStored_attached : (s.withStored r w n).attached = s.attached := rfl
@[simp] theorem State.withStored_base : (s.withStored r w n).base = s.base := rfl
@[simp] theorem State.withStored_cfg : (s.withStored r w n).cfg = s.cfg := rfl
@[simp] theorem State.withStored_xA : (s.withStored r w n).xA = s.xA := rfl
@[simp] theorem State.withStored_xB : (s.withStored r w n).xB = s.xB := rfl
@[simp] theorem State.withStored_xT : (s.withStored r w n).xT = s.xT := rfl
@[simp] theorem State.withStored_xM : (s.withStored r w n).xM = s.xM := rfl
@[simp] theorem State.withStored_xR : (s.withStored r w n).xR = s.xR := rfl
@[simp] theorem State.withStored_deadline : (s.withStored r w n).deadline = s.deadline := rfl
@[simp] theorem State.withStored_status : (s.withStored r w n).status = s.status := rfl
@[simp] theorem State.withStored_pc : (s.withStored r w n).pc = s.pc := rfl
@[simp] theorem State.withStored_retStack : (s.withStored r w n).retStack = s.retStack := rfl
@[simp] theorem State.withStored_verstr : (s.withStored r w n).verstr = s.verstr := rfl
@[simp] theorem State.withStored_version : (s.withStored r w n).version = s.version := rfl
@[simp] theorem State.withStored_core : (s.withStored r w n).core = s.core.set r w := rfl
@[simp] theorem State.withStored_phycr4 : (s.withStored r w n).phycr4 = s.phycr4 := rfl
@[simp] theorem State.withStored_auxReadyAt : (s.withStored r w n).auxReadyAt = n := rfl
@[simp] theorem State.withStored_cpEvent : (s.withStored r w n).cpEvent = s.cpEvent := rfl
@[simp] theorem State.withStored_now : (s.withStored r w n).now = s.now := rfl
@[simp] theorem State.withStored_trace : (s.withStored r w n).trace = s.trace := rfl
@[simp] theorem State.withStored_host : (s.withStored r w n).host = s.host := rfl
@[simp] theorem State.withStored_lines : (s.withStored r w n).lines = s.lines := rfl
@[simp] theorem State.withStored_envScript : (s.withStored r w n).envScript = s.envScript := rfl
@[simp] theorem State.withStored_envTick : (s.withStored r w n).envTick = s.envTick := rfl

end withStored

end Sys2Proof.Machine
end

