-- ==== Sys2Proof/Laws/Env.lean ====
section
/-! SUPPORT. What the environment can do (R56, R276): every field but the register file, PHYCR[4] and the CP
event line is unchanged by HW, SRST_CTRL and the identity registers always are, and with no reset held every
RW bit is too and no W1C bit is cleared. -/

namespace Sys2Proof.Machine

/-! ### Fields that the environment leaves -/

section fields
variable (s : State)

@[simp] theorem State.latchHpd_attached (w : Bool) : (s.latchHpd w).attached = s.attached := by
  unfold State.latchHpd; split <;> rfl
@[simp] theorem State.latchHpd_base (w : Bool) : (s.latchHpd w).base = s.base := by
  unfold State.latchHpd; split <;> rfl
@[simp] theorem State.latchHpd_cfg (w : Bool) : (s.latchHpd w).cfg = s.cfg := by
  unfold State.latchHpd; split <;> rfl
@[simp] theorem State.latchHpd_xA (w : Bool) : (s.latchHpd w).xA = s.xA := by
  unfold State.latchHpd; split <;> rfl
@[simp] theorem State.latchHpd_xB (w : Bool) : (s.latchHpd w).xB = s.xB := by
  unfold State.latchHpd; split <;> rfl
@[simp] theorem State.latchHpd_xT (w : Bool) : (s.latchHpd w).xT = s.xT := by
  unfold State.latchHpd; split <;> rfl
@[simp] theorem State.latchHpd_xM (w : Bool) : (s.latchHpd w).xM = s.xM := by
  unfold State.latchHpd; split <;> rfl
@[simp] theorem State.latchHpd_xR (w : Bool) : (s.latchHpd w).xR = s.xR := by
  unfold State.latchHpd; split <;> rfl
@[simp] theorem State.latchHpd_deadline (w : Bool) : (s.latchHpd w).deadline = s.deadline := by
  unfold State.latchHpd; split <;> rfl
@[simp] theorem State.latchHpd_status (w : Bool) : (s.latchHpd w).status = s.status := by
  unfold State.latchHpd; split <;> rfl
@[simp] theorem State.latchHpd_pc (w : Bool) : (s.latchHpd w).pc = s.pc := by
  unfold State.latchHpd; split <;> rfl
@[simp] theorem State.latchHpd_retStack (w : Bool) : (s.latchHpd w).retStack = s.retStack := by
  unfold State.latchHpd; split <;> rfl
@[simp] theorem State.latchHpd_verstr (w : Bool) : (s.latchHpd w).verstr = s.verstr := by
  unfold State.latchHpd; split <;> rfl
@[simp] theorem State.latchHpd_version (w : Bool) : (s.latchHpd w).version = s.version := by
  unfold State.latchHpd; split <;> rfl
@[simp] theorem State.latchHpd_phycr4 (w : Bool) : (s.latchHpd w).phycr4 = s.phycr4 := by
  unfold State.latchHpd; split <;> rfl
@[simp] theorem State.latchHpd_auxReadyAt (w : Bool) : (s.latchHpd w).auxReadyAt = s.auxReadyAt := by
  unfold State.latchHpd; split <;> rfl
@[simp] theorem State.latchHpd_cpEvent (w : Bool) : (s.latchHpd w).cpEvent = s.cpEvent := by
  unfold State.latchHpd; split <;> rfl
@[simp] theorem State.latchHpd_now (w : Bool) : (s.latchHpd w).now = s.now := by
  unfold State.latchHpd; split <;> rfl
@[simp] theorem State.latchHpd_trace (w : Bool) : (s.latchHpd w).trace = s.trace := by
  unfold State.latchHpd; split <;> rfl
@[simp] theorem State.latchHpd_host (w : Bool) : (s.latchHpd w).host = s.host := by
  unfold State.latchHpd; split <;> rfl
@[simp] theorem State.latchHpd_lines (w : Bool) : (s.latchHpd w).lines = s.lines := by
  unfold State.latchHpd; split <;> rfl
@[simp] theorem State.latchHpd_envScript (w : Bool) : (s.latchHpd w).envScript = s.envScript := by
  unfold State.latchHpd; split <;> rfl
@[simp] theorem State.latchHpd_envTick (w : Bool) : (s.latchHpd w).envTick = s.envTick := by
  unfold State.latchHpd; split <;> rfl
@[simp] theorem State.hwStep_attached (h : HwStep) : (s.hwStep h).attached = s.attached := by
  unfold State.hwStep; split <;> simp
@[simp] theorem State.hwStep_base (h : HwStep) : (s.hwStep h).base = s.base := by
  unfold State.hwStep; split <;> simp
@[simp] theorem State.hwStep_cfg (h : HwStep) : (s.hwStep h).cfg = s.cfg := by
  unfold State.hwStep; split <;> simp
@[simp] theorem State.hwStep_xA (h : HwStep) : (s.hwStep h).xA = s.xA := by
  unfold State.hwStep; split <;> simp
@[simp] theorem State.hwStep_xB (h : HwStep) : (s.hwStep h).xB = s.xB := by
  unfold State.hwStep; split <;> simp
@[simp] theorem State.hwStep_xT (h : HwStep) : (s.hwStep h).xT = s.xT := by
  unfold State.hwStep; split <;> simp
@[simp] theorem State.hwStep_xM (h : HwStep) : (s.hwStep h).xM = s.xM := by
  unfold State.hwStep; split <;> simp
@[simp] theorem State.hwStep_xR (h : HwStep) : (s.hwStep h).xR = s.xR := by
  unfold State.hwStep; split <;> simp
@[simp] theorem State.hwStep_deadline (h : HwStep) : (s.hwStep h).deadline = s.deadline := by
  unfold State.hwStep; split <;> simp
@[simp] theorem State.hwStep_status (h : HwStep) : (s.hwStep h).status = s.status := by
  unfold State.hwStep; split <;> simp
@[simp] theorem State.hwStep_pc (h : HwStep) : (s.hwStep h).pc = s.pc := by
  unfold State.hwStep; split <;> simp
@[simp] theorem State.hwStep_retStack (h : HwStep) : (s.hwStep h).retStack = s.retStack := by
  unfold State.hwStep; split <;> simp
@[simp] theorem State.hwStep_verstr (h : HwStep) : (s.hwStep h).verstr = s.verstr := by
  unfold State.hwStep; split <;> simp
@[simp] theorem State.hwStep_version (h : HwStep) : (s.hwStep h).version = s.version := by
  unfold State.hwStep; split <;> simp
@[simp] theorem State.hwStep_auxReadyAt (h : HwStep) : (s.hwStep h).auxReadyAt = s.auxReadyAt := by
  unfold State.hwStep; split <;> simp
@[simp] theorem State.hwStep_now (h : HwStep) : (s.hwStep h).now = s.now := by
  unfold State.hwStep; split <;> simp
@[simp] theorem State.hwStep_trace (h : HwStep) : (s.hwStep h).trace = s.trace := by
  unfold State.hwStep; split <;> simp
@[simp] theorem State.hwStep_host (h : HwStep) : (s.hwStep h).host = s.host := by
  unfold State.hwStep; split <;> simp
@[simp] theorem State.hwStep_envScript (h : HwStep) : (s.hwStep h).envScript = s.envScript := by
  unfold State.hwStep; split <;> simp
@[simp] theorem State.hwStep_envTick (h : HwStep) : (s.hwStep h).envTick = s.envTick := by
  unfold State.hwStep; split <;> simp
@[simp] theorem State.hwSteps_attached (hs : List HwStep) : (s.hwSteps hs).attached = s.attached := by
  induction hs generalizing s with
  | nil => rfl
  | cons h hs ih => simp [State.hwSteps, ih]
@[simp] theorem State.hwSteps_base (hs : List HwStep) : (s.hwSteps hs).base = s.base := by
  induction hs generalizing s with
  | nil => rfl
  | cons h hs ih => simp [State.hwSteps, ih]
@[simp] theorem State.hwSteps_cfg (hs : List HwStep) : (s.hwSteps hs).cfg = s.cfg := by
  induction hs generalizing s with
  | nil => rfl
  | cons h hs ih => simp [State.hwSteps, ih]
@[simp] theorem State.hwSteps_xA (hs : List HwStep) : (s.hwSteps hs).xA = s.xA := by
  induction hs generalizing s with
  | nil => rfl
  | cons h hs ih => simp [State.hwSteps, ih]
@[simp] theorem State.hwSteps_xB (hs : List HwStep) : (s.hwSteps hs).xB = s.xB := by
  induction hs generalizing s with
  | nil => rfl
  | cons h hs ih => simp [State.hwSteps, ih]
@[simp] theorem State.hwSteps_xT (hs : List HwStep) : (s.hwSteps hs).xT = s.xT := by
  induction hs generalizing s with
  | nil => rfl
  | cons h hs ih => simp [State.hwSteps, ih]
@[simp] theorem State.hwSteps_xM (hs : List HwStep) : (s.hwSteps hs).xM = s.xM := by
  induction hs generalizing s with
  | nil => rfl
  | cons h hs ih => simp [State.hwSteps, ih]
@[simp] theorem State.hwSteps_xR (hs : List HwStep) : (s.hwSteps hs).xR = s.xR := by
  induction hs generalizing s with
  | nil => rfl
  | cons h hs ih => simp [State.hwSteps, ih]
@[simp] theorem State.hwSteps_deadline (hs : List HwStep) : (s.hwSteps hs).deadline = s.deadline := by
  induction hs generalizing s with
  | nil => rfl
  | cons h hs ih => simp [State.hwSteps, ih]
@[simp] theorem State.hwSteps_status (hs : List HwStep) : (s.hwSteps hs).status = s.status := by
  induction hs generalizing s with
  | nil => rfl
  | cons h hs ih => simp [State.hwSteps, ih]
@[simp] theorem State.hwSteps_pc (hs : List HwStep) : (s.hwSteps hs).pc = s.pc := by
  induction hs generalizing s with
  | nil => rfl
  | cons h hs ih => simp [State.hwSteps, ih]
@[simp] theorem State.hwSteps_retStack (hs : List HwStep) : (s.hwSteps hs).retStack = s.retStack := by
  induction hs generalizing s with
  | nil => rfl
  | cons h hs ih => simp [State.hwSteps, ih]
@[simp] theorem State.hwSteps_verstr (hs : List HwStep) : (s.hwSteps hs).verstr = s.verstr := by
  induction hs generalizing s with
  | nil => rfl
  | cons h hs ih => simp [State.hwSteps, ih]
@[simp] theorem State.hwSteps_version (hs : List HwStep) : (s.hwSteps hs).version = s.version := by
  induction hs generalizing s with
  | nil => rfl
  | cons h hs ih => simp [State.hwSteps, ih]
@[simp] theorem State.hwSteps_auxReadyAt (hs : List HwStep) : (s.hwSteps hs).auxReadyAt = s.auxReadyAt := by
  induction hs generalizing s with
  | nil => rfl
  | cons h hs ih => simp [State.hwSteps, ih]
@[simp] theorem State.hwSteps_now (hs : List HwStep) : (s.hwSteps hs).now = s.now := by
  induction hs generalizing s with
  | nil => rfl
  | cons h hs ih => simp [State.hwSteps, ih]
@[simp] theorem State.hwSteps_trace (hs : List HwStep) : (s.hwSteps hs).trace = s.trace := by
  induction hs generalizing s with
  | nil => rfl
  | cons h hs ih => simp [State.hwSteps, ih]
@[simp] theorem State.hwSteps_host (hs : List HwStep) : (s.hwSteps hs).host = s.host := by
  induction hs generalizing s with
  | nil => rfl
  | cons h hs ih => simp [State.hwSteps, ih]
@[simp] theorem State.hwSteps_envScript (hs : List HwStep) : (s.hwSteps hs).envScript = s.envScript := by
  induction hs generalizing s with
  | nil => rfl
  | cons h hs ih => simp [State.hwSteps, ih]
@[simp] theorem State.hwSteps_envTick (hs : List HwStep) : (s.hwSteps hs).envTick = s.envTick := by
  induction hs generalizing s with
  | nil => rfl
  | cons h hs ih => simp [State.hwSteps, ih]
@[simp] theorem State.envMove_attached : s.envMove.attached = s.attached := by
  simp [State.envMove]
@[simp] theorem State.envMove_base : s.envMove.base = s.base := by
  simp [State.envMove]
@[simp] theorem State.envMove_cfg : s.envMove.cfg = s.cfg := by
  simp [State.envMove]
@[simp] theorem State.envMove_xA : s.envMove.xA = s.xA := by
  simp [State.envMove]
@[simp] theorem State.envMove_xB : s.envMove.xB = s.xB := by
  simp [State.envMove]
@[simp] theorem State.envMove_xT : s.envMove.xT = s.xT := by
  simp [State.envMove]
@[simp] theorem State.envMove_xM : s.envMove.xM = s.xM := by
  simp [State.envMove]
@[simp] theorem State.envMove_xR : s.envMove.xR = s.xR := by
  simp [State.envMove]
@[simp] theorem State.envMove_deadline : s.envMove.deadline = s.deadline := by
  simp [State.envMove]
@[simp] theorem State.envMove_status : s.envMove.status = s.status := by
  simp [State.envMove]
@[simp] theorem State.envMove_pc : s.envMove.pc = s.pc := by
  simp [State.envMove]
@[simp] theorem State.envMove_retStack : s.envMove.retStack = s.retStack := by
  simp [State.envMove]
@[simp] theorem State.envMove_verstr : s.envMove.verstr = s.verstr := by
  simp [State.envMove]
@[simp] theorem State.envMove_version : s.envMove.version = s.version := by
  simp [State.envMove]
@[simp] theorem State.envMove_auxReadyAt : s.envMove.auxReadyAt = s.auxReadyAt := by
  simp [State.envMove]
theorem State.envMove_now : s.envMove.now = s.now + s.nextEnv.dt := by
  simp [State.envMove]
@[simp] theorem State.envMove_trace : s.envMove.trace = s.trace := by
  simp [State.envMove]
@[simp] theorem State.envMove_host : s.envMove.host = s.host := by
  simp [State.envMove]
theorem State.envMove_envScript : s.envMove.envScript = s.envScript.tail := by
  simp [State.envMove]
theorem State.envMove_envTick : s.envMove.envTick = s.envTick + 1 := by
  simp [State.envMove]

end fields

/-! ### What HW keeps -/

theorem KeptWord.refl (m : RegMap) (r : CoreReg) (w : Word) : KeptWord m r w w := by
  refine ⟨rfl, ?_⟩
  apply BitVec.eq_of_getLsbD_eq
  intro i hi
  cases h : w.getLsbD i <;> simp [h, hi, -BitVec.getLsbD_eq_getElem]

theorem keptWord_iff (m : RegMap) (r : CoreReg) (old new : Word) :
    KeptWord m r old new ↔
      ∀ i, i < 32 →
        ((m.roHwMask r).getLsbD i = false → (m.w1cMask r).getLsbD i = false →
          new.getLsbD i = old.getLsbD i) ∧
        ((m.w1cMask r).getLsbD i = true → old.getLsbD i = true → new.getLsbD i = true) := by
  constructor
  · rintro ⟨h1, h2⟩ i hi
    rw [and_mask_eq_iff] at h1
    refine ⟨fun ha hb => h1 i hi ?_, fun ha hb => ?_⟩
    · simp [rwBits, ha, hb, hi, -BitVec.getLsbD_eq_getElem]
    · have := congrArg (fun w : Word => w.getLsbD i) h2
      simpa [ha, hb, hi, -BitVec.getLsbD_eq_getElem] using this
  · intro h
    refine ⟨?_, ?_⟩
    · rw [and_mask_eq_iff]
      intro i hi hm
      simp only [rwBits, BitVec.getLsbD_not, BitVec.getLsbD_or, hi, decide_true, Bool.true_and,
        Bool.not_eq_true', Bool.or_eq_false_iff] at hm
      exact (h i hi).1 hm.1 hm.2
    · apply BitVec.eq_of_getLsbD_eq
      intro i hi
      have := (h i hi).2
      cases ha : (m.w1cMask r).getLsbD i <;> cases hb : old.getLsbD i <;>
        simp_all [-BitVec.getLsbD_eq_getElem]

theorem KeptWord.trans {m : RegMap} {r : CoreReg} {x y z : Word} (h : KeptWord m r x y)
    (h' : KeptWord m r y z) : KeptWord m r x z := by
  rw [keptWord_iff] at *
  intro i hi
  refine ⟨fun a b => ((h' i hi).1 a b).trans ((h i hi).1 a b), fun a b => (h' i hi).2 a ((h i hi).2 a b)⟩

theorem RegKept.refl (s : State) (r : CoreReg) : RegKept s s r := KeptWord.refl _ _ _

theorem RegKept.trans {s t u : State} {r : CoreReg} (hc : t.cfg = s.cfg) (h : RegKept s t r)
    (h' : RegKept t u r) : RegKept s u r := by
  unfold RegKept at *
  rw [hc] at h'
  exact h.trans h'

/-- A register none of whose bits HW drives or fires. -/
def wholeRw : CoreReg → Bool
  | .phyifCtrl | .typeCCtrl | .ists | .hpdsts => false
  | _ => true

/-- Such a register is kept only if it is equal. -/
theorem RegKept.eq_of_wholeRw {s t : State} {r : CoreReg} (h : RegKept s t r) (hr : wholeRw r = true) :
    t.coreWord r = s.coreWord r := by
  have := h.1
  cases r <;> simp_all [rwBits, RegMap.roHwMask, RegMap.w1cMask, wholeRw, and_all_ones]

/-! ### The steps of HW -/

theorem State.latchHpd_core_ne (s : State) (w : Bool) (r : CoreReg) (h : r ≠ .ists) :
    (s.latchHpd w).coreWord r = s.coreWord r := by
  unfold State.latchHpd
  split
  · cases r <;> first | rfl | exact absurd rfl h
  · rfl

theorem State.latchHpd_regKept (s : State) (w : Bool) (r : CoreReg) : RegKept s (s.latchHpd w) r := by
  by_cases h : r = .ists
  · subst h
    unfold State.latchHpd
    split
    · rw [RegKept, keptWord_iff]
      intro i hi
      constructor
      · intro _ hb
        have : s.cfg.map.ienAll.getLsbD i = false := hb
        simp [State.coreWord, CoreFile.get, this, -BitVec.getLsbD_eq_getElem]
      · intro _ hb
        have : s.core.ists.getLsbD i = true := hb
        simp [State.coreWord, CoreFile.get, this, -BitVec.getLsbD_eq_getElem]
    · exact RegKept.refl _ _
  · rw [RegKept, State.latchHpd_core_ne _ _ _ h]; exact KeptWord.refl _ _ _

@[simp] theorem State.latchHpd_srstCtrl (s : State) (w : Bool) :
    (s.latchHpd w).core.srstCtrl = s.core.srstCtrl := by
  unfold State.latchHpd; split <;> rfl

@[simp] theorem State.latchHpd_held (s : State) (w : Bool) : (s.latchHpd w).held = s.held := by
  simp [State.held]

theorem State.hwDriven_regKept (s : State) (h : HwStep) (r : CoreReg) : RegKept s (s.hwDriven h) r := by
  rw [RegKept, keptWord_iff]
  intro i hi
  cases r with
  | ists =>
    simp only [State.coreWord, CoreFile.get, State.hwDriven_core, CoreFile.driven, RegMap.roHwMask, RegMap.w1cMask]
    refine ⟨fun _ hb => ?_, fun _ hb => ?_⟩ <;> simp [hb, -BitVec.getLsbD_eq_getElem]
  | hpdsts =>
    simp only [State.coreWord, CoreFile.get, State.hwDriven_core, CoreFile.driven, RegMap.roHwMask, RegMap.w1cMask]
    refine ⟨fun ha hb => ?_, fun ha hb => ?_⟩
    · rw [BitVec.getLsbD_or, BitVec.getLsbD_and, blend_getLsbD _ _ _ _ hi, ha, hb]; simp
    · have : (~~~s.cfg.map.hpdEvtAll).getLsbD i = false := by simp [ha, -BitVec.getLsbD_eq_getElem]
      rw [BitVec.getLsbD_or, BitVec.getLsbD_and, blend_getLsbD _ _ _ _ hi, this, hb]; simp
  | phyifCtrl =>
    simp only [State.coreWord, CoreFile.get, State.hwDriven_core, CoreFile.driven, RegMap.roHwMask, RegMap.w1cMask]
    refine ⟨fun ha _ => ?_, fun ha _ => by simp at ha⟩
    rw [blend_getLsbD _ _ _ _ hi, ha]; simp
  | typeCCtrl =>
    simp only [State.coreWord, CoreFile.get, State.hwDriven_core, CoreFile.driven, RegMap.roHwMask, RegMap.w1cMask]
    refine ⟨fun ha _ => ?_, fun ha _ => by simp at ha⟩
    rw [blend_getLsbD _ _ _ _ hi, ha]; simp
  | _ =>
    refine ⟨fun _ _ => rfl, fun _ hb => hb⟩

@[simp] theorem State.hwDriven_held (s : State) (h : HwStep) : (s.hwDriven h).held = s.held := rfl

@[simp] theorem State.resetFilled_srst (s : State) (f : ResetFill) :
    (s.resetFilled f).core.srstCtrl = s.core.srstCtrl := by
  simp

@[simp] theorem State.resetFilled_held (s : State) (f : ResetFill) : (s.resetFilled f).held = s.held := by
  simp [State.held]

theorem State.resetFilled_eq (s : State) (f : ResetFill) (h : s.held = 0#32) : s.resetFilled f = s := by
  simp [State.resetFilled, h, CoreFile.resetFilled_zero, SrstDomain.mask_zero]

@[simp] theorem State.hwStep_srstCtrl (s : State) (h : HwStep) :
    (s.hwStep h).core.srstCtrl = s.core.srstCtrl := by
  unfold State.hwStep; split <;> simp [CoreFile.driven]

@[simp] theorem State.hwStep_held (s : State) (h : HwStep) : (s.hwStep h).held = s.held := by
  simp [State.held]

theorem State.hwStep_regKept (s : State) (h : HwStep) (h0 : s.held = 0#32) (r : CoreReg) :
    RegKept s (s.hwStep h) r := by
  have key : s.hwStep h = ((s.hwDriven h).latchHpd s.hpdActive).sampled := by
    unfold State.hwStep; split
    · rw [State.resetFilled_eq _ _ h0]
    · rfl
  rw [key]
  exact (State.hwDriven_regKept s h r).trans (by rfl) (State.latchHpd_regKept _ _ r)

theorem State.hwStep_phycr4 (s : State) (h : HwStep) (h0 : s.held = 0#32) :
    (s.hwStep h).phycr4 = s.phycr4 := by
  unfold State.hwStep; split
  · rw [State.resetFilled_eq _ _ h0]; simp
  · simp

@[simp] theorem State.hwSteps_srstCtrl (s : State) (hs : List HwStep) :
    (s.hwSteps hs).core.srstCtrl = s.core.srstCtrl := by
  induction hs generalizing s with
  | nil => rfl
  | cons h hs ih => simp [State.hwSteps, ih]

@[simp] theorem State.hwSteps_held (s : State) (hs : List HwStep) : (s.hwSteps hs).held = s.held := by
  simp [State.held]

theorem State.hwSteps_regKept (s : State) (hs : List HwStep) (h0 : s.held = 0#32) (r : CoreReg) :
    RegKept s (s.hwSteps hs) r := by
  induction hs generalizing s with
  | nil => exact RegKept.refl _ _
  | cons h hs ih =>
    exact (State.hwStep_regKept s h h0 r).trans (by simp) (ih (s.hwStep h) (by simpa using h0))

theorem State.hwSteps_phycr4 (s : State) (hs : List HwStep) (h0 : s.held = 0#32) :
    (s.hwSteps hs).phycr4 = s.phycr4 := by
  induction hs generalizing s with
  | nil => rfl
  | cons h hs ih =>
    rw [State.hwSteps, ih (s.hwStep h) (by simpa using h0), State.hwStep_phycr4 s h h0]

/-! ### The environment's move -/

/-- SRST_CTRL is never changed by the environment (R56, R277). -/
@[simp] theorem State.envMove_srstCtrl (s : State) : s.envMove.core.srstCtrl = s.core.srstCtrl := by
  simp [State.envMove]

@[simp] theorem State.envMove_held (s : State) : s.envMove.held = s.held := by
  simp [State.held]

/-- With no reset held the environment keeps every register but for events and driven bits (R56). -/
theorem State.envMove_regKept (s : State) (h0 : s.held = 0#32) (r : CoreReg) : RegKept s s.envMove r :=
  State.hwSteps_regKept (s.timeStep s.nextEnv) s.nextEnv.hw h0 r

/-- With no reset held the environment keeps PHYCR[4] (R56). -/
theorem State.envMove_phycr4 (s : State) (h0 : s.held = 0#32) : s.envMove.phycr4 = s.phycr4 :=
  State.hwSteps_phycr4 (s.timeStep s.nextEnv) s.nextEnv.hw h0

/-- Time never goes back (R27). -/
theorem State.le_envMove_now (s : State) : s.now ≤ s.envMove.now := by
  rw [State.envMove_now]; omega

/-- The RO-const registers hold their configured values always (R55). -/
theorem State.envMove_coreWord_const (s : State) (r : CoreReg)
    (hr : r = .verNumber ∨ r = .verType ∨ r = .id) : s.envMove.coreWord r = s.coreWord r := by
  rcases hr with rfl | rfl | rfl <;> simp [State.coreWord]

@[simp] theorem State.envMove_coreWord_srst (s : State) :
    s.envMove.coreWord .srstCtrl = s.coreWord .srstCtrl := by
  simp [State.coreWord, CoreFile.get]

/-- A gap without hardware steps changes only time and the script. -/
theorem State.envMove_of_quiet (s : State) (h : s.nextEnv.hw = []) : s.envMove = s.timeStep s.nextEnv := by
  simp [State.envMove, h, State.hwSteps]

end Sys2Proof.Machine
end

