-- ==== Sys2Proof/Laws/Ops.lean ====
section
/-! SUPPORT. What each micro-step and idiom can do, said once: the fields it leaves, its trace, what becomes of
the registers, and that time never goes back. -/

namespace Sys2Proof.Machine

/-! ### Fields and trace -/

section fields
variable (s : State)

@[simp] theorem State.readT_attached (r : CoreReg) : (s.readT r).attached = s.attached := by
  simp [State.readT, State.memRead]
@[simp] theorem State.readT_base (r : CoreReg) : (s.readT r).base = s.base := by
  simp [State.readT, State.memRead]
@[simp] theorem State.readT_cfg (r : CoreReg) : (s.readT r).cfg = s.cfg := by
  simp [State.readT, State.memRead]
@[simp] theorem State.readT_xA (r : CoreReg) : (s.readT r).xA = s.xA := by
  simp [State.readT, State.memRead]
@[simp] theorem State.readT_xB (r : CoreReg) : (s.readT r).xB = s.xB := by
  simp [State.readT, State.memRead]
@[simp] theorem State.readT_xT (r : CoreReg) : (s.readT r).xT = s.envMove.coreWord r := by
  simp [State.readT, State.memRead]
@[simp] theorem State.readT_xM (r : CoreReg) : (s.readT r).xM = s.xM := by
  simp [State.readT, State.memRead]
@[simp] theorem State.readT_xR (r : CoreReg) : (s.readT r).xR = s.xR := by
  simp [State.readT, State.memRead]
@[simp] theorem State.readT_deadline (r : CoreReg) : (s.readT r).deadline = s.deadline := by
  simp [State.readT, State.memRead]
@[simp] theorem State.readT_status (r : CoreReg) : (s.readT r).status = s.status := by
  simp [State.readT, State.memRead]
@[simp] theorem State.readT_retStack (r : CoreReg) : (s.readT r).retStack = s.retStack := by
  simp [State.readT, State.memRead]
@[simp] theorem State.readT_verstr (r : CoreReg) : (s.readT r).verstr = s.verstr := by
  simp [State.readT, State.memRead]
@[simp] theorem State.readT_version (r : CoreReg) : (s.readT r).version = s.version := by
  simp [State.readT, State.memRead]
@[simp] theorem State.readT_auxReadyAt (r : CoreReg) : (s.readT r).auxReadyAt = s.auxReadyAt := by
  simp [State.readT, State.memRead]
@[simp] theorem State.readT_host (r : CoreReg) : (s.readT r).host = s.host := by
  simp [State.readT, State.memRead]
@[simp] theorem State.readT_trace (r : CoreReg) : (s.readT r).trace = s.trace ++
    [.memRead .core (s.cfg.map.offsetOf r) (s.envMove.coreWord r)] := by
  simp [State.readT, State.memRead]
@[simp] theorem State.readT_pc (r : CoreReg) : (s.readT r).pc = s.pc.next := by
  simp [State.readT, State.memRead]
@[simp] theorem State.readT_core (r : CoreReg) : (s.readT r).core = s.envMove.core := by
  simp [State.readT, State.memRead]
@[simp] theorem State.readT_coreWord (r q : CoreReg) : (s.readT r).coreWord q = s.envMove.coreWord q := by
  simp [State.readT, State.memRead]
@[simp] theorem State.readT_phycr4 (r : CoreReg) : (s.readT r).phycr4 = s.envMove.phycr4 := by
  simp [State.readT, State.memRead]
@[simp] theorem State.readT_now (r : CoreReg) : (s.readT r).now = s.envMove.now := by
  simp [State.readT, State.memRead]
@[simp] theorem State.readT_held (r : CoreReg) : (s.readT r).held = s.held := by
  simp [State.held]

@[simp] theorem State.storeCore_attached (r : CoreReg) (v : Word) : (s.storeCore r v).attached = s.attached := by
  simp [State.storeCore]
@[simp] theorem State.storeCore_base (r : CoreReg) (v : Word) : (s.storeCore r v).base = s.base := by
  simp [State.storeCore]
@[simp] theorem State.storeCore_cfg (r : CoreReg) (v : Word) : (s.storeCore r v).cfg = s.cfg := by
  simp [State.storeCore]
@[simp] theorem State.storeCore_xA (r : CoreReg) (v : Word) : (s.storeCore r v).xA = s.xA := by
  simp [State.storeCore]
@[simp] theorem State.storeCore_xB (r : CoreReg) (v : Word) : (s.storeCore r v).xB = s.xB := by
  simp [State.storeCore]
@[simp] theorem State.storeCore_xT (r : CoreReg) (v : Word) : (s.storeCore r v).xT = s.xT := by
  simp [State.storeCore]
@[simp] theorem State.storeCore_xM (r : CoreReg) (v : Word) : (s.storeCore r v).xM = s.xM := by
  simp [State.storeCore]
@[simp] theorem State.storeCore_xR (r : CoreReg) (v : Word) : (s.storeCore r v).xR = s.xR := by
  simp [State.storeCore]
@[simp] theorem State.storeCore_deadline (r : CoreReg) (v : Word) : (s.storeCore r v).deadline = s.deadline := by
  simp [State.storeCore]
@[simp] theorem State.storeCore_status (r : CoreReg) (v : Word) : (s.storeCore r v).status = s.status := by
  simp [State.storeCore]
@[simp] theorem State.storeCore_retStack (r : CoreReg) (v : Word) : (s.storeCore r v).retStack = s.retStack := by
  simp [State.storeCore]
@[simp] theorem State.storeCore_verstr (r : CoreReg) (v : Word) : (s.storeCore r v).verstr = s.verstr := by
  simp [State.storeCore]
@[simp] theorem State.storeCore_version (r : CoreReg) (v : Word) : (s.storeCore r v).version = s.version := by
  simp [State.storeCore]
@[simp] theorem State.storeCore_auxReadyAt (r : CoreReg) (v : Word) : (s.storeCore r v).auxReadyAt = s.settleAfter r := by
  simp [State.storeCore]
@[simp] theorem State.storeCore_host (r : CoreReg) (v : Word) : (s.storeCore r v).host = s.host := by
  simp [State.storeCore]
@[simp] theorem State.storeCore_trace (r : CoreReg) (v : Word) : (s.storeCore r v).trace = s.trace := by
  simp [State.storeCore]
@[simp] theorem State.storeCore_pc (r : CoreReg) (v : Word) : (s.storeCore r v).pc = s.pc := by
  simp [State.storeCore]
@[simp] theorem State.storeCore_now (r : CoreReg) (v : Word) : (s.storeCore r v).now = s.now := by
  simp [State.storeCore]
@[simp] theorem State.storeCore_phycr4 (r : CoreReg) (v : Word) : (s.storeCore r v).phycr4 = s.phycr4 := by
  simp [State.storeCore]

@[simp] theorem State.memWrite_attached (r : CoreReg) (v : Word) : (s.memWrite r v).attached = s.attached := by
  simp [State.memWrite]
@[simp] theorem State.memWrite_base (r : CoreReg) (v : Word) : (s.memWrite r v).base = s.base := by
  simp [State.memWrite]
@[simp] theorem State.memWrite_cfg (r : CoreReg) (v : Word) : (s.memWrite r v).cfg = s.cfg := by
  simp [State.memWrite]
@[simp] theorem State.memWrite_xA (r : CoreReg) (v : Word) : (s.memWrite r v).xA = s.xA := by
  simp [State.memWrite]
@[simp] theorem State.memWrite_xB (r : CoreReg) (v : Word) : (s.memWrite r v).xB = s.xB := by
  simp [State.memWrite]
@[simp] theorem State.memWrite_xT (r : CoreReg) (v : Word) : (s.memWrite r v).xT = s.xT := by
  simp [State.memWrite]
@[simp] theorem State.memWrite_xM (r : CoreReg) (v : Word) : (s.memWrite r v).xM = s.xM := by
  simp [State.memWrite]
@[simp] theorem State.memWrite_xR (r : CoreReg) (v : Word) : (s.memWrite r v).xR = s.xR := by
  simp [State.memWrite]
@[simp] theorem State.memWrite_deadline (r : CoreReg) (v : Word) : (s.memWrite r v).deadline = s.deadline := by
  simp [State.memWrite]
@[simp] theorem State.memWrite_status (r : CoreReg) (v : Word) : (s.memWrite r v).status = s.status := by
  simp [State.memWrite]
@[simp] theorem State.memWrite_retStack (r : CoreReg) (v : Word) : (s.memWrite r v).retStack = s.retStack := by
  simp [State.memWrite]
@[simp] theorem State.memWrite_verstr (r : CoreReg) (v : Word) : (s.memWrite r v).verstr = s.verstr := by
  simp [State.memWrite]
@[simp] theorem State.memWrite_version (r : CoreReg) (v : Word) : (s.memWrite r v).version = s.version := by
  simp [State.memWrite]
@[simp] theorem State.memWrite_auxReadyAt (r : CoreReg) (v : Word) : (s.memWrite r v).auxReadyAt = if r = .auxCtrl then s.envMove.now + s.cfg.tAuxSettle else s.auxReadyAt := by
  simp [State.memWrite, State.settleAfter]
@[simp] theorem State.memWrite_host (r : CoreReg) (v : Word) : (s.memWrite r v).host = s.host := by
  simp [State.memWrite]
@[simp] theorem State.memWrite_trace (r : CoreReg) (v : Word) : (s.memWrite r v).trace = s.trace ++
    [.memWrite .core (s.cfg.map.offsetOf r) v] := by
  simp [State.memWrite]
@[simp] theorem State.memWrite_pc (r : CoreReg) (v : Word) : (s.memWrite r v).pc = s.pc.next := by
  simp [State.memWrite]

@[simp] theorem State.phycrWrite_attached (v : Word) : (s.phycrWrite v).attached = s.attached := by
  simp [State.phycrWrite]
@[simp] theorem State.phycrWrite_base (v : Word) : (s.phycrWrite v).base = s.base := by
  simp [State.phycrWrite]
@[simp] theorem State.phycrWrite_cfg (v : Word) : (s.phycrWrite v).cfg = s.cfg := by
  simp [State.phycrWrite]
@[simp] theorem State.phycrWrite_xA (v : Word) : (s.phycrWrite v).xA = s.xA := by
  simp [State.phycrWrite]
@[simp] theorem State.phycrWrite_xB (v : Word) : (s.phycrWrite v).xB = s.xB := by
  simp [State.phycrWrite]
@[simp] theorem State.phycrWrite_xT (v : Word) : (s.phycrWrite v).xT = s.xT := by
  simp [State.phycrWrite]
@[simp] theorem State.phycrWrite_xM (v : Word) : (s.phycrWrite v).xM = s.xM := by
  simp [State.phycrWrite]
@[simp] theorem State.phycrWrite_xR (v : Word) : (s.phycrWrite v).xR = s.xR := by
  simp [State.phycrWrite]
@[simp] theorem State.phycrWrite_deadline (v : Word) : (s.phycrWrite v).deadline = s.deadline := by
  simp [State.phycrWrite]
@[simp] theorem State.phycrWrite_status (v : Word) : (s.phycrWrite v).status = s.status := by
  simp [State.phycrWrite]
@[simp] theorem State.phycrWrite_retStack (v : Word) : (s.phycrWrite v).retStack = s.retStack := by
  simp [State.phycrWrite]
@[simp] theorem State.phycrWrite_verstr (v : Word) : (s.phycrWrite v).verstr = s.verstr := by
  simp [State.phycrWrite]
@[simp] theorem State.phycrWrite_version (v : Word) : (s.phycrWrite v).version = s.version := by
  simp [State.phycrWrite]
@[simp] theorem State.phycrWrite_auxReadyAt (v : Word) : (s.phycrWrite v).auxReadyAt = s.auxReadyAt := by
  simp [State.phycrWrite]
@[simp] theorem State.phycrWrite_host (v : Word) : (s.phycrWrite v).host = s.host := by
  simp [State.phycrWrite]
@[simp] theorem State.phycrWrite_trace (v : Word) : (s.phycrWrite v).trace = s.trace ++
    [.memWrite .phycr phycrCal v] := by
  simp [State.phycrWrite]
@[simp] theorem State.phycrWrite_pc (v : Word) : (s.phycrWrite v).pc = s.pc.next := by
  simp [State.phycrWrite]

@[simp] theorem State.wait_attached (d : Nat) : (s.wait d).attached = s.attached := by
  simp [State.wait]
@[simp] theorem State.wait_base (d : Nat) : (s.wait d).base = s.base := by
  simp [State.wait]
@[simp] theorem State.wait_cfg (d : Nat) : (s.wait d).cfg = s.cfg := by
  simp [State.wait]
@[simp] theorem State.wait_xA (d : Nat) : (s.wait d).xA = s.xA := by
  simp [State.wait]
@[simp] theorem State.wait_xB (d : Nat) : (s.wait d).xB = s.xB := by
  simp [State.wait]
@[simp] theorem State.wait_xT (d : Nat) : (s.wait d).xT = s.xT := by
  simp [State.wait]
@[simp] theorem State.wait_xM (d : Nat) : (s.wait d).xM = s.xM := by
  simp [State.wait]
@[simp] theorem State.wait_xR (d : Nat) : (s.wait d).xR = s.xR := by
  simp [State.wait]
@[simp] theorem State.wait_deadline (d : Nat) : (s.wait d).deadline = s.deadline := by
  simp [State.wait]
@[simp] theorem State.wait_status (d : Nat) : (s.wait d).status = s.status := by
  simp [State.wait]
@[simp] theorem State.wait_retStack (d : Nat) : (s.wait d).retStack = s.retStack := by
  simp [State.wait]
@[simp] theorem State.wait_verstr (d : Nat) : (s.wait d).verstr = s.verstr := by
  simp [State.wait]
@[simp] theorem State.wait_version (d : Nat) : (s.wait d).version = s.version := by
  simp [State.wait]
@[simp] theorem State.wait_auxReadyAt (d : Nat) : (s.wait d).auxReadyAt = s.auxReadyAt := by
  simp [State.wait]
@[simp] theorem State.wait_host (d : Nat) : (s.wait d).host = s.host := by
  simp [State.wait]
@[simp] theorem State.wait_trace (d : Nat) : (s.wait d).trace = s.trace ++
    [.wait s.envMove.now (s.envMove.now + d + s.nextEnv.extra)] := by
  simp [State.wait]
@[simp] theorem State.wait_pc (d : Nat) : (s.wait d).pc = s.pc.next := by
  simp [State.wait]

@[simp] theorem State.logEvent_attached (id : LogId) : (s.logEvent id).attached = s.attached := by
  simp [State.logEvent]
@[simp] theorem State.logEvent_base (id : LogId) : (s.logEvent id).base = s.base := by
  simp [State.logEvent]
@[simp] theorem State.logEvent_cfg (id : LogId) : (s.logEvent id).cfg = s.cfg := by
  simp [State.logEvent]
@[simp] theorem State.logEvent_xA (id : LogId) : (s.logEvent id).xA = s.xA := by
  simp [State.logEvent]
@[simp] theorem State.logEvent_xB (id : LogId) : (s.logEvent id).xB = s.xB := by
  simp [State.logEvent]
@[simp] theorem State.logEvent_xT (id : LogId) : (s.logEvent id).xT = s.xT := by
  simp [State.logEvent]
@[simp] theorem State.logEvent_xM (id : LogId) : (s.logEvent id).xM = s.xM := by
  simp [State.logEvent]
@[simp] theorem State.logEvent_xR (id : LogId) : (s.logEvent id).xR = s.xR := by
  simp [State.logEvent]
@[simp] theorem State.logEvent_deadline (id : LogId) : (s.logEvent id).deadline = s.deadline := by
  simp [State.logEvent]
@[simp] theorem State.logEvent_status (id : LogId) : (s.logEvent id).status = s.status := by
  simp [State.logEvent]
@[simp] theorem State.logEvent_retStack (id : LogId) : (s.logEvent id).retStack = s.retStack := by
  simp [State.logEvent]
@[simp] theorem State.logEvent_verstr (id : LogId) : (s.logEvent id).verstr = s.verstr := by
  simp [State.logEvent]
@[simp] theorem State.logEvent_version (id : LogId) : (s.logEvent id).version = s.version := by
  simp [State.logEvent]
@[simp] theorem State.logEvent_auxReadyAt (id : LogId) : (s.logEvent id).auxReadyAt = s.auxReadyAt := by
  simp [State.logEvent]
@[simp] theorem State.logEvent_host (id : LogId) : (s.logEvent id).host = s.host := by
  simp [State.logEvent]
@[simp] theorem State.logEvent_trace (id : LogId) : (s.logEvent id).trace = s.trace ++
    [.log id] := by
  simp [State.logEvent]
@[simp] theorem State.logEvent_pc (id : LogId) : (s.logEvent id).pc = s.pc.next := by
  simp [State.logEvent]

@[simp] theorem State.callSecure_attached : (s.callSecure).attached = s.attached := by
  simp [State.callSecure]
@[simp] theorem State.callSecure_base : (s.callSecure).base = s.base := by
  simp [State.callSecure]
@[simp] theorem State.callSecure_cfg : (s.callSecure).cfg = s.cfg := by
  simp [State.callSecure]
@[simp] theorem State.callSecure_xA : (s.callSecure).xA = s.xA := by
  simp [State.callSecure]
@[simp] theorem State.callSecure_xB : (s.callSecure).xB = s.xB := by
  simp [State.callSecure]
@[simp] theorem State.callSecure_xT : (s.callSecure).xT = s.xT := by
  simp [State.callSecure]
@[simp] theorem State.callSecure_xM : (s.callSecure).xM = s.xM := by
  simp [State.callSecure]
@[simp] theorem State.callSecure_xR : (s.callSecure).xR = s.xR := by
  simp [State.callSecure]
@[simp] theorem State.callSecure_deadline : (s.callSecure).deadline = s.deadline := by
  simp [State.callSecure]
@[simp] theorem State.callSecure_status : (s.callSecure).status = s.status := by
  simp [State.callSecure]
@[simp] theorem State.callSecure_retStack : (s.callSecure).retStack = s.retStack := by
  simp [State.callSecure]
@[simp] theorem State.callSecure_verstr : (s.callSecure).verstr = s.verstr := by
  simp [State.callSecure]
@[simp] theorem State.callSecure_version : (s.callSecure).version = s.version := by
  simp [State.callSecure]
@[simp] theorem State.callSecure_auxReadyAt : (s.callSecure).auxReadyAt = s.auxReadyAt := by
  simp [State.callSecure]
@[simp] theorem State.callSecure_host : (s.callSecure).host = s.host := by
  simp [State.callSecure]
@[simp] theorem State.callSecure_trace : (s.callSecure).trace = s.trace ++
    [.callSecure] := by
  simp [State.callSecure]
@[simp] theorem State.callSecure_pc : (s.callSecure).pc = s.pc.next := by
  simp [State.callSecure]

@[simp] theorem State.ret_attached (st : Status) (v : Word) : (s.ret st v).attached = s.attached := by
  simp [State.ret]
@[simp] theorem State.ret_base (st : Status) (v : Word) : (s.ret st v).base = s.base := by
  simp [State.ret]
@[simp] theorem State.ret_cfg (st : Status) (v : Word) : (s.ret st v).cfg = s.cfg := by
  simp [State.ret]
@[simp] theorem State.ret_xA (st : Status) (v : Word) : (s.ret st v).xA = s.xA := by
  simp [State.ret]
@[simp] theorem State.ret_xB (st : Status) (v : Word) : (s.ret st v).xB = s.xB := by
  simp [State.ret]
@[simp] theorem State.ret_xT (st : Status) (v : Word) : (s.ret st v).xT = s.xT := by
  simp [State.ret]
@[simp] theorem State.ret_xM (st : Status) (v : Word) : (s.ret st v).xM = s.xM := by
  simp [State.ret]
@[simp] theorem State.ret_xR (st : Status) (v : Word) : (s.ret st v).xR = v := by
  simp [State.ret]
@[simp] theorem State.ret_deadline (st : Status) (v : Word) : (s.ret st v).deadline = s.deadline := by
  simp [State.ret]
@[simp] theorem State.ret_status (st : Status) (v : Word) : (s.ret st v).status = st := by
  simp [State.ret]
@[simp] theorem State.ret_retStack (st : Status) (v : Word) : (s.ret st v).retStack = s.retStack := by
  simp [State.ret]
@[simp] theorem State.ret_verstr (st : Status) (v : Word) : (s.ret st v).verstr = s.verstr := by
  simp [State.ret]
@[simp] theorem State.ret_version (st : Status) (v : Word) : (s.ret st v).version = s.version := by
  simp [State.ret]
@[simp] theorem State.ret_auxReadyAt (st : Status) (v : Word) : (s.ret st v).auxReadyAt = s.auxReadyAt := by
  simp [State.ret]
@[simp] theorem State.ret_host (st : Status) (v : Word) : (s.ret st v).host = s.host := by
  simp [State.ret]
@[simp] theorem State.ret_trace (st : Status) (v : Word) : (s.ret st v).trace = s.trace ++
    [.ret st v] := by
  simp [State.ret]
@[simp] theorem State.ret_pc (st : Status) (v : Word) : (s.ret st v).pc = .idle := by
  simp [State.ret]

@[simp] theorem State.raiseError_attached (id : LogId) (st : Status) (v : Word) : (s.raiseError id st v).attached = s.attached := by
  simp [State.raiseError]
@[simp] theorem State.raiseError_base (id : LogId) (st : Status) (v : Word) : (s.raiseError id st v).base = s.base := by
  simp [State.raiseError]
@[simp] theorem State.raiseError_cfg (id : LogId) (st : Status) (v : Word) : (s.raiseError id st v).cfg = s.cfg := by
  simp [State.raiseError]
@[simp] theorem State.raiseError_xA (id : LogId) (st : Status) (v : Word) : (s.raiseError id st v).xA = s.xA := by
  simp [State.raiseError]
@[simp] theorem State.raiseError_xB (id : LogId) (st : Status) (v : Word) : (s.raiseError id st v).xB = s.xB := by
  simp [State.raiseError]
@[simp] theorem State.raiseError_xT (id : LogId) (st : Status) (v : Word) : (s.raiseError id st v).xT = s.xT := by
  simp [State.raiseError]
@[simp] theorem State.raiseError_xM (id : LogId) (st : Status) (v : Word) : (s.raiseError id st v).xM = s.xM := by
  simp [State.raiseError]
@[simp] theorem State.raiseError_xR (id : LogId) (st : Status) (v : Word) : (s.raiseError id st v).xR = v := by
  simp [State.raiseError]
@[simp] theorem State.raiseError_deadline (id : LogId) (st : Status) (v : Word) : (s.raiseError id st v).deadline = s.deadline := by
  simp [State.raiseError]
@[simp] theorem State.raiseError_status (id : LogId) (st : Status) (v : Word) : (s.raiseError id st v).status = st := by
  simp [State.raiseError]
@[simp] theorem State.raiseError_retStack (id : LogId) (st : Status) (v : Word) : (s.raiseError id st v).retStack = s.retStack := by
  simp [State.raiseError]
@[simp] theorem State.raiseError_verstr (id : LogId) (st : Status) (v : Word) : (s.raiseError id st v).verstr = s.verstr := by
  simp [State.raiseError]
@[simp] theorem State.raiseError_version (id : LogId) (st : Status) (v : Word) : (s.raiseError id st v).version = s.version := by
  simp [State.raiseError]
@[simp] theorem State.raiseError_auxReadyAt (id : LogId) (st : Status) (v : Word) : (s.raiseError id st v).auxReadyAt = s.auxReadyAt := by
  simp [State.raiseError]
@[simp] theorem State.raiseError_host (id : LogId) (st : Status) (v : Word) : (s.raiseError id st v).host = s.host := by
  simp [State.raiseError]
@[simp] theorem State.raiseError_trace (id : LogId) (st : Status) (v : Word) : (s.raiseError id st v).trace = s.trace ++
    [.log id, .ret st v] := by
  simp [State.raiseError]
@[simp] theorem State.raiseError_pc (id : LogId) (st : Status) (v : Word) : (s.raiseError id st v).pc = .idle := by
  simp [State.raiseError]

@[simp] theorem State.rmw_attached (r : CoreReg) (f : Word → Word) : (s.rmw r f).attached = s.attached := by
  simp [State.rmw]
@[simp] theorem State.rmw_base (r : CoreReg) (f : Word → Word) : (s.rmw r f).base = s.base := by
  simp [State.rmw]
@[simp] theorem State.rmw_cfg (r : CoreReg) (f : Word → Word) : (s.rmw r f).cfg = s.cfg := by
  simp [State.rmw]
@[simp] theorem State.rmw_xA (r : CoreReg) (f : Word → Word) : (s.rmw r f).xA = s.xA := by
  simp [State.rmw]
@[simp] theorem State.rmw_xB (r : CoreReg) (f : Word → Word) : (s.rmw r f).xB = s.xB := by
  simp [State.rmw]
@[simp] theorem State.rmw_xT (r : CoreReg) (f : Word → Word) : (s.rmw r f).xT = s.envMove.coreWord r := by
  simp [State.rmw]
@[simp] theorem State.rmw_xM (r : CoreReg) (f : Word → Word) : (s.rmw r f).xM = s.xM := by
  simp [State.rmw]
@[simp] theorem State.rmw_xR (r : CoreReg) (f : Word → Word) : (s.rmw r f).xR = s.xR := by
  simp [State.rmw]
@[simp] theorem State.rmw_deadline (r : CoreReg) (f : Word → Word) : (s.rmw r f).deadline = s.deadline := by
  simp [State.rmw]
@[simp] theorem State.rmw_status (r : CoreReg) (f : Word → Word) : (s.rmw r f).status = s.status := by
  simp [State.rmw]
@[simp] theorem State.rmw_retStack (r : CoreReg) (f : Word → Word) : (s.rmw r f).retStack = s.retStack := by
  simp [State.rmw]
@[simp] theorem State.rmw_verstr (r : CoreReg) (f : Word → Word) : (s.rmw r f).verstr = s.verstr := by
  simp [State.rmw]
@[simp] theorem State.rmw_version (r : CoreReg) (f : Word → Word) : (s.rmw r f).version = s.version := by
  simp [State.rmw]
@[simp] theorem State.rmw_host (r : CoreReg) (f : Word → Word) : (s.rmw r f).host = s.host := by
  simp [State.rmw]
@[simp] theorem State.rmw_trace (r : CoreReg) (f : Word → Word) : (s.rmw r f).trace = s.trace ++
    [.memRead .core (s.cfg.map.offsetOf r) (s.envMove.coreWord r), .memWrite .core (s.cfg.map.offsetOf r) (f (s.envMove.coreWord r))] := by
  simp [State.rmw]
@[simp] theorem State.rmw_pc (r : CoreReg) (f : Word → Word) : (s.rmw r f).pc = s.pc.next.next := by
  simp [State.rmw]

@[simp] theorem State.rmwT_attached (r : CoreReg) (f : Word → Word) : (s.rmwT r f).attached = s.attached := by
  simp [State.rmwT]
@[simp] theorem State.rmwT_base (r : CoreReg) (f : Word → Word) : (s.rmwT r f).base = s.base := by
  simp [State.rmwT]
@[simp] theorem State.rmwT_cfg (r : CoreReg) (f : Word → Word) : (s.rmwT r f).cfg = s.cfg := by
  simp [State.rmwT]
@[simp] theorem State.rmwT_xA (r : CoreReg) (f : Word → Word) : (s.rmwT r f).xA = s.xA := by
  simp [State.rmwT]
@[simp] theorem State.rmwT_xB (r : CoreReg) (f : Word → Word) : (s.rmwT r f).xB = s.xB := by
  simp [State.rmwT]
@[simp] theorem State.rmwT_xT (r : CoreReg) (f : Word → Word) : (s.rmwT r f).xT = f (s.envMove.coreWord r) := by
  simp [State.rmwT]
@[simp] theorem State.rmwT_xM (r : CoreReg) (f : Word → Word) : (s.rmwT r f).xM = s.xM := by
  simp [State.rmwT]
@[simp] theorem State.rmwT_xR (r : CoreReg) (f : Word → Word) : (s.rmwT r f).xR = s.xR := by
  simp [State.rmwT]
@[simp] theorem State.rmwT_deadline (r : CoreReg) (f : Word → Word) : (s.rmwT r f).deadline = s.deadline := by
  simp [State.rmwT]
@[simp] theorem State.rmwT_status (r : CoreReg) (f : Word → Word) : (s.rmwT r f).status = s.status := by
  simp [State.rmwT]
@[simp] theorem State.rmwT_retStack (r : CoreReg) (f : Word → Word) : (s.rmwT r f).retStack = s.retStack := by
  simp [State.rmwT]
@[simp] theorem State.rmwT_verstr (r : CoreReg) (f : Word → Word) : (s.rmwT r f).verstr = s.verstr := by
  simp [State.rmwT]
@[simp] theorem State.rmwT_version (r : CoreReg) (f : Word → Word) : (s.rmwT r f).version = s.version := by
  simp [State.rmwT]
@[simp] theorem State.rmwT_host (r : CoreReg) (f : Word → Word) : (s.rmwT r f).host = s.host := by
  simp [State.rmwT]
@[simp] theorem State.rmwT_trace (r : CoreReg) (f : Word → Word) : (s.rmwT r f).trace = s.trace ++
    [.memRead .core (s.cfg.map.offsetOf r) (s.envMove.coreWord r), .memWrite .core (s.cfg.map.offsetOf r) (f (s.envMove.coreWord r))] := by
  simp [State.rmwT]
@[simp] theorem State.rmwT_pc (r : CoreReg) (f : Word → Word) : (s.rmwT r f).pc = s.pc.next.next := by
  simp [State.rmwT]

end fields

/-! ### Registers -/

/-- The registers that are not configuration (R30 to R32). -/
def stored (r : CoreReg) : Prop := r ≠ .verNumber ∧ r ≠ .verType ∧ r ≠ .id

theorem State.coreWord_of_stored (s : State) (r : CoreReg) (h : stored r) : s.coreWord r = s.core.get r := by
  cases r <;> first | rfl | simp [stored] at h

theorem State.coreWord_congr (s t : State) (r : CoreReg) (hc : t.cfg = s.cfg) (h : t.core.get r = s.core.get r) :
    t.coreWord r = s.coreWord r := by
  cases r <;> simp_all [State.coreWord]

theorem State.withStored_coreWord_ne (s : State) (r q : CoreReg) (w : Word) (n : Nat) (h : q ≠ r) :
    (s.withStored r w n).coreWord q = s.coreWord q :=
  State.coreWord_congr s _ q rfl (CoreFile.get_set_ne _ _ _ _ h)

theorem State.withStored_coreWord_eq (s : State) (r : CoreReg) (w : Word) (n : Nat) (h : stored r) :
    (s.withStored r w n).coreWord r = w := by
  rw [State.coreWord_of_stored _ _ h]; exact CoreFile.get_set_eq _ _ _ h

/-- A store leaves every other register, but for the latched hot-plug-detect source (R73, R242). -/
theorem State.storeCore_regKept (s : State) (r q : CoreReg) (v : Word) (h : q ≠ r) :
    RegKept s (s.storeCore r v) q := by
  unfold State.storeCore
  refine RegKept.trans (t := s.withStored r (s.cfg.map.written r (s.coreWord r) v) (s.settleAfter r)) rfl ?_
    (State.latchHpd_regKept _ _ q)
  rw [RegKept, State.withStored_coreWord_ne _ _ _ _ _ h]
  exact KeptWord.refl _ _ _

/-- A store of a register other than ISTS leaves exactly the written word in it (R73). -/
theorem State.storeCore_word (s : State) (r : CoreReg) (v : Word) (hr : stored r) (hi : r ≠ .ists) :
    (s.storeCore r v).coreWord r = s.cfg.map.written r (s.coreWord r) v := by
  unfold State.storeCore
  rw [State.latchHpd_core_ne _ _ _ hi, State.withStored_coreWord_eq _ _ _ _ hr]

/-- A write to ISTS can make no sub-event active, so it latches nothing (R242). -/
theorem State.storeCore_ists (s : State) (v : Word) :
    (s.storeCore .ists v).coreWord .ists = s.cfg.map.written .ists (s.coreWord .ists) v := by
  have : ∀ w n, (s.withStored .ists w n).hpdActive = s.hpdActive := fun w n => rfl
  unfold State.storeCore State.latchHpd
  rw [this]
  cases s.hpdActive <;> rfl

/-- A store of any register leaves exactly the written word in it (R73). -/
theorem State.storeCore_written (s : State) (r : CoreReg) (v : Word) (hr : stored r) :
    (s.storeCore r v).coreWord r = s.cfg.map.written r (s.coreWord r) v := by
  by_cases hi : r = .ists
  · subst hi; exact State.storeCore_ists s v
  · exact State.storeCore_word s r v hr hi

/-- A register all of whose bits are RW takes the word written (R73). -/
theorem RegMap.written_whole (m : RegMap) (r : CoreReg) (old v : Word) (hr : stored r) (hw : wholeRw r = true) :
    m.written r old v = v := by
  apply BitVec.eq_of_getLsbD_eq
  intro i hi
  rw [RegMap.written_getLsbD _ _ _ _ _ hi]
  cases r <;> simp_all [stored, wholeRw, RegMap.deafMask, RegMap.roHwMask, RegMap.w1cMask]

theorem State.memWrite_written (s : State) (r : CoreReg) (v : Word) (hr : stored r) :
    (s.memWrite r v).coreWord r = s.cfg.map.written r (s.envMove.coreWord r) v := by
  unfold State.memWrite
  rw [State.done_coreWord, State.storeCore_written _ _ _ hr, State.envMove_cfg]

theorem State.memWrite_whole (s : State) (r : CoreReg) (v : Word) (hr : stored r) (hw : wholeRw r = true) :
    (s.memWrite r v).coreWord r = v := by
  rw [State.memWrite_written _ _ _ hr, RegMap.written_whole _ _ _ _ hr hw]

/-- The stored bits of a register take the bits of the word written (R73). -/
theorem State.memWrite_storedBits (s : State) (r : CoreReg) (v : Word) (hr : stored r) :
    (s.memWrite r v).coreWord r &&& storedBits s.cfg.map r = v &&& storedBits s.cfg.map r := by
  rw [State.memWrite_written _ _ _ hr, and_mask_eq_iff]
  intro i hi hm
  simp only [storedBits, BitVec.getLsbD_not, BitVec.getLsbD_or, hi, decide_true, Bool.true_and,
    Bool.not_eq_true', Bool.or_eq_false_iff] at hm
  rw [RegMap.written_getLsbD _ _ _ _ _ hi, hm.1, hm.2]; simp

theorem State.memWrite_regKept (s : State) (r q : CoreReg) (v : Word) (h0 : s.held = 0#32) (h : q ≠ r) :
    RegKept s (s.memWrite r v) q := by
  refine (State.envMove_regKept s h0 q).trans (by simp) ?_
  have := State.storeCore_regKept s.envMove r q v h
  simpa [RegKept, State.memWrite] using this

@[simp] theorem State.memWrite_srst (s : State) (v : Word) :
    (s.memWrite .srstCtrl v).core.srstCtrl = v :=
  State.memWrite_whole s .srstCtrl v (by simp [stored]) rfl

theorem State.memWrite_srst_ne (s : State) (r : CoreReg) (v : Word) (h : r ≠ .srstCtrl) :
    (s.memWrite r v).core.srstCtrl = s.core.srstCtrl := by
  have h1 : (s.memWrite r v).core.srstCtrl = (s.envMove.core.set r
      (s.cfg.map.written r (s.envMove.coreWord r) v)).srstCtrl := by
    simp [State.memWrite, State.storeCore]
  rw [h1]
  have := CoreFile.get_set_ne s.envMove.core r .srstCtrl
    (s.cfg.map.written r (s.envMove.coreWord r) v) (Ne.symm h)
  simpa [CoreFile.get] using this

theorem State.memWrite_held (s : State) (r : CoreReg) (v : Word) (h : r ≠ .srstCtrl) :
    (s.memWrite r v).held = s.held := by
  simp [State.held, State.memWrite_srst_ne s r v h]

theorem State.memWrite_held_srst (s : State) (v : Word) :
    (s.memWrite .srstCtrl v).held = v &&& s.cfg.map.srstValid := by
  simp [State.held]

theorem State.memWrite_phycr4 (s : State) (r : CoreReg) (v : Word) (h0 : s.held = 0#32) :
    (s.memWrite r v).phycr4 = s.phycr4 := by
  simp [State.memWrite, State.envMove_phycr4 s h0]

theorem State.le_memWrite_now (s : State) (r : CoreReg) (v : Word) : s.now ≤ (s.memWrite r v).now := by
  simpa [State.memWrite] using s.le_envMove_now

theorem State.le_readT_now (s : State) (r : CoreReg) : s.now ≤ (s.readT r).now := by
  simpa using s.le_envMove_now

theorem State.readT_regKept (s : State) (r q : CoreReg) (h0 : s.held = 0#32) : RegKept s (s.readT r) q := by
  simpa [RegKept] using State.envMove_regKept s h0 q

theorem State.readT_xT_whole (s : State) (r : CoreReg) (h0 : s.held = 0#32) (hw : wholeRw r = true) :
    (s.readT r).xT = s.coreWord r := by
  rw [State.readT_xT, (State.envMove_regKept s h0 r).eq_of_wholeRw hw]

/-! ### Micro-steps without register access -/

@[simp] theorem State.wait_core (s : State) (d : Nat) : (s.wait d).core = s.envMove.core := by
  simp [State.wait]
@[simp] theorem State.wait_coreWord (s : State) (d : Nat) (q : CoreReg) : (s.wait d).coreWord q = s.envMove.coreWord q := by
  simp [State.wait]
@[simp] theorem State.wait_held (s : State) (d : Nat) : (s.wait d).held = s.held := by
  simp [State.held]
@[simp] theorem State.wait_phycr4 (s : State) (d : Nat) : (s.wait d).phycr4 = s.envMove.phycr4 := by
  simp [State.wait]
theorem State.wait_regKept (s : State) (d : Nat) (h0 : s.held = 0#32) (q : CoreReg) : RegKept s (s.wait d) q := by
  simpa [RegKept] using State.envMove_regKept s h0 q
theorem State.le_wait_now (s : State) (d : Nat) : s.now ≤ (s.wait d).now := by
  have := s.le_envMove_now
  simp [State.wait]; omega

@[simp] theorem State.logEvent_core (s : State) (id : LogId) : (s.logEvent id).core = s.envMove.core := by
  simp [State.logEvent]
@[simp] theorem State.logEvent_coreWord (s : State) (id : LogId) (q : CoreReg) : (s.logEvent id).coreWord q = s.envMove.coreWord q := by
  simp [State.logEvent]
@[simp] theorem State.logEvent_held (s : State) (id : LogId) : (s.logEvent id).held = s.held := by
  simp [State.held]
@[simp] theorem State.logEvent_phycr4 (s : State) (id : LogId) : (s.logEvent id).phycr4 = s.envMove.phycr4 := by
  simp [State.logEvent]
theorem State.logEvent_regKept (s : State) (id : LogId) (h0 : s.held = 0#32) (q : CoreReg) : RegKept s (s.logEvent id) q := by
  simpa [RegKept] using State.envMove_regKept s h0 q
theorem State.le_logEvent_now (s : State) (id : LogId) : s.now ≤ (s.logEvent id).now := by
  have := s.le_envMove_now
  simp [State.logEvent]; omega

@[simp] theorem State.callSecure_core (s : State) : (s.callSecure).core = s.envMove.core := by
  simp [State.callSecure]
@[simp] theorem State.callSecure_coreWord (s : State) (q : CoreReg) : (s.callSecure).coreWord q = s.envMove.coreWord q := by
  simp [State.callSecure]
@[simp] theorem State.callSecure_held (s : State) : (s.callSecure).held = s.held := by
  simp [State.held]
@[simp] theorem State.callSecure_phycr4 (s : State) : (s.callSecure).phycr4 = s.envMove.phycr4 := by
  simp [State.callSecure]
theorem State.callSecure_regKept (s : State) (h0 : s.held = 0#32) (q : CoreReg) : RegKept s (s.callSecure) q := by
  simpa [RegKept] using State.envMove_regKept s h0 q
theorem State.le_callSecure_now (s : State) : s.now ≤ (s.callSecure).now := by
  have := s.le_envMove_now
  simp [State.callSecure]; omega

@[simp] theorem State.ret_core (s : State) (st : Status) (v : Word) : (s.ret st v).core = s.envMove.core := by
  simp [State.ret]
@[simp] theorem State.ret_coreWord (s : State) (st : Status) (v : Word) (q : CoreReg) : (s.ret st v).coreWord q = s.envMove.coreWord q := by
  simp [State.ret]
@[simp] theorem State.ret_held (s : State) (st : Status) (v : Word) : (s.ret st v).held = s.held := by
  simp [State.held]
@[simp] theorem State.ret_phycr4 (s : State) (st : Status) (v : Word) : (s.ret st v).phycr4 = s.envMove.phycr4 := by
  simp [State.ret]
theorem State.ret_regKept (s : State) (st : Status) (v : Word) (h0 : s.held = 0#32) (q : CoreReg) : RegKept s (s.ret st v) q := by
  simpa [RegKept] using State.envMove_regKept s h0 q
theorem State.le_ret_now (s : State) (st : Status) (v : Word) : s.now ≤ (s.ret st v).now := by
  have := s.le_envMove_now
  simp [State.ret]; omega

/-- A wait lasts at least what is asked (R27, R84). -/
theorem State.wait_now (s : State) (d : Nat) :
    (s.wait d).now = s.envMove.now + d + s.nextEnv.extra := by
  simp [State.wait]

theorem State.add_le_wait_now (s : State) (d : Nat) : s.now + d ≤ (s.wait d).now := by
  have := s.le_envMove_now
  rw [State.wait_now]; omega

/-! ### PHYCR -/

@[simp] theorem State.phycrWrite_core (s : State) (v : Word) : (s.phycrWrite v).core = s.envMove.core := by
  simp [State.phycrWrite]
@[simp] theorem State.phycrWrite_coreWord (s : State) (v : Word) (q : CoreReg) :
    (s.phycrWrite v).coreWord q = s.envMove.coreWord q := by
  simp [State.phycrWrite]
@[simp] theorem State.phycrWrite_held (s : State) (v : Word) : (s.phycrWrite v).held = s.held := by
  simp [State.held]
@[simp] theorem State.phycrWrite_phycr4 (s : State) (v : Word) : (s.phycrWrite v).phycr4 = v := by
  simp [State.phycrWrite]
theorem State.phycrWrite_regKept (s : State) (v : Word) (h0 : s.held = 0#32) (q : CoreReg) :
    RegKept s (s.phycrWrite v) q := by
  simpa [RegKept] using State.envMove_regKept s h0 q
theorem State.le_phycrWrite_now (s : State) (v : Word) : s.now ≤ (s.phycrWrite v).now := by
  simpa [State.phycrWrite] using s.le_envMove_now

/-! ### Read-modify-writes -/

theorem State.rmw_regKept (s : State) (r q : CoreReg) (f : Word → Word) (h0 : s.held = 0#32) (h : q ≠ r) :
    RegKept s (s.rmw r f) q := by
  refine (State.readT_regKept s r q h0).trans (by simp) ?_
  exact State.memWrite_regKept (s.readT r) r q _ (by simpa using h0) h

theorem State.rmwT_regKept (s : State) (r q : CoreReg) (f : Word → Word) (h0 : s.held = 0#32) (h : q ≠ r) :
    RegKept s (s.rmwT r f) q := by
  refine (State.readT_regKept s r q h0).trans (by simp) ?_
  have := State.memWrite_regKept ((s.readT r).withT (f (s.readT r).xT)) r q (f (s.readT r).xT)
    (by simpa using h0) h
  simpa [RegKept, State.rmwT] using this

theorem State.rmw_whole (s : State) (r : CoreReg) (f : Word → Word) (h0 : s.held = 0#32) (hr : stored r)
    (hw : wholeRw r = true) : (s.rmw r f).coreWord r = f (s.coreWord r) := by
  rw [State.rmw, State.memWrite_whole _ _ _ hr hw, State.readT_xT_whole _ _ h0 hw]

theorem State.rmwT_whole (s : State) (r : CoreReg) (f : Word → Word) (h0 : s.held = 0#32) (hr : stored r)
    (hw : wholeRw r = true) : (s.rmwT r f).coreWord r = f (s.coreWord r) := by
  rw [State.rmwT, State.memWrite_whole _ _ _ hr hw, State.withT_xT, State.readT_xT_whole _ _ h0 hw]

/-- Whatever HW does, a read-modify-write of SRST_CTRL stores the function of what it held (R277). -/
@[simp] theorem State.rmw_srst (s : State) (f : Word → Word) :
    (s.rmw .srstCtrl f).core.srstCtrl = f s.core.srstCtrl := by
  simp [State.rmw, State.coreWord, CoreFile.get]

theorem State.rmw_held_srst (s : State) (f : Word → Word) :
    (s.rmw .srstCtrl f).held = f s.core.srstCtrl &&& s.cfg.map.srstValid := by
  simp [State.held]

theorem State.rmw_srst_ne (s : State) (r : CoreReg) (f : Word → Word) (h : r ≠ .srstCtrl) :
    (s.rmw r f).core.srstCtrl = s.core.srstCtrl := by
  simp [State.rmw, State.memWrite_srst_ne _ _ _ h]

theorem State.rmwT_srst_ne (s : State) (r : CoreReg) (f : Word → Word) (h : r ≠ .srstCtrl) :
    (s.rmwT r f).core.srstCtrl = s.core.srstCtrl := by
  simp [State.rmwT, State.memWrite_srst_ne _ _ _ h]

theorem State.rmw_held (s : State) (r : CoreReg) (f : Word → Word) (h : r ≠ .srstCtrl) :
    (s.rmw r f).held = s.held := by
  simp [State.held, State.rmw_srst_ne _ _ _ h]

theorem State.rmwT_held (s : State) (r : CoreReg) (f : Word → Word) (h : r ≠ .srstCtrl) :
    (s.rmwT r f).held = s.held := by
  simp [State.held, State.rmwT_srst_ne _ _ _ h]

theorem State.rmw_phycr4 (s : State) (r : CoreReg) (f : Word → Word) (h0 : s.held = 0#32) :
    (s.rmw r f).phycr4 = s.phycr4 := by
  rw [State.rmw, State.memWrite_phycr4 _ _ _ (by simpa using h0)]
  simp [State.envMove_phycr4 s h0]

theorem State.rmwT_phycr4 (s : State) (r : CoreReg) (f : Word → Word) (h0 : s.held = 0#32) :
    (s.rmwT r f).phycr4 = s.phycr4 := by
  rw [State.rmwT, State.memWrite_phycr4 _ _ _ (by simpa using h0)]
  simp [State.envMove_phycr4 s h0]

theorem State.le_rmw_now (s : State) (r : CoreReg) (f : Word → Word) : s.now ≤ (s.rmw r f).now :=
  (s.le_readT_now r).trans (State.le_memWrite_now _ _ _)

theorem State.le_rmwT_now (s : State) (r : CoreReg) (f : Word → Word) : s.now ≤ (s.rmwT r f).now := by
  refine (s.le_readT_now r).trans ?_
  exact State.le_memWrite_now ((s.readT r).withT (f (s.readT r).xT)) r _

/-- The word that a read-modify-write of PHYIF_CTRL leaves outside the BUSY bits is the function of the word
read, which agrees with the word before outside them (R40, R80). -/
theorem State.rmw_phyif (s : State) (f : Word → Word) :
    (s.rmw .phyifCtrl f).core.phyifCtrl &&& ~~~s.cfg.map.busy.allMask
      = f s.envMove.core.phyifCtrl &&& ~~~s.cfg.map.busy.allMask := by
  have := State.memWrite_storedBits (s.readT .phyifCtrl) .phyifCtrl (f (s.readT .phyifCtrl).xT) (by simp [stored])
  simpa [State.rmw, storedBits, RegMap.deafMask, RegMap.roHwMask, RegMap.w1cMask, State.coreWord, CoreFile.get]
    using this

theorem State.rmwT_phyif (s : State) (f : Word → Word) :
    (s.rmwT .phyifCtrl f).core.phyifCtrl &&& ~~~s.cfg.map.busy.allMask
      = f s.envMove.core.phyifCtrl &&& ~~~s.cfg.map.busy.allMask := by
  have := State.memWrite_storedBits ((s.readT .phyifCtrl).withT (f (s.readT .phyifCtrl).xT)) .phyifCtrl
    (f (s.readT .phyifCtrl).xT) (by simp [stored])
  simpa [State.rmwT, storedBits, RegMap.deafMask, RegMap.roHwMask, RegMap.w1cMask, State.coreWord, CoreFile.get]
    using this

/-- With no reset held, PHYIF_CTRL outside the BUSY bits survives a gap (R56). -/
theorem State.envMove_phyif (s : State) (h0 : s.held = 0#32) :
    s.envMove.core.phyifCtrl &&& ~~~s.cfg.map.busy.allMask
      = s.core.phyifCtrl &&& ~~~s.cfg.map.busy.allMask := by
  have := (State.envMove_regKept s h0 .phyifCtrl).1
  simpa [rwBits, RegMap.roHwMask, RegMap.w1cMask, State.coreWord, CoreFile.get] using this

/-! ### Nested calls -/

section callOp
variable (s : State) (op : Op) (a b : Word) (body : State → State)

/-- A nested call of a body that leaves the return stack gives the caller its pc and operands back and is
otherwise the body (R23). -/
theorem State.callOp_eq (h : (body (s.pushFrame op a b)).retStack = (s.pushFrame op a b).retStack) :
    s.callOp op a b body =
      { body (s.pushFrame op a b) with retStack := s.retStack, pc := s.pc.next, xA := s.xA, xB := s.xB } := by
  unfold State.callOp State.popFrame
  rw [h]; rfl

end callOp

end Sys2Proof.Machine
end

