-- ==== Sys2Proof/Laws/Sequences.lean ====
section
/-! SUPPORT. The fields that each micro-sequence of an operation leaves, nested calls included. -/

namespace Sys2Proof.Machine

/-! ### Nested calls, field by field -/

section callOp
variable (s : State) (op : Op) (a b : Word) (body : State → State)

@[simp] theorem State.popFrame_attached : s.popFrame.attached = s.attached := by
  unfold State.popFrame; split <;> rfl
@[simp] theorem State.callOp_attached : (s.callOp op a b body).attached = (body (s.pushFrame op a b)).attached := by
  simp [State.callOp]
@[simp] theorem State.popFrame_base : s.popFrame.base = s.base := by
  unfold State.popFrame; split <;> rfl
@[simp] theorem State.callOp_base : (s.callOp op a b body).base = (body (s.pushFrame op a b)).base := by
  simp [State.callOp]
@[simp] theorem State.popFrame_cfg : s.popFrame.cfg = s.cfg := by
  unfold State.popFrame; split <;> rfl
@[simp] theorem State.callOp_cfg : (s.callOp op a b body).cfg = (body (s.pushFrame op a b)).cfg := by
  simp [State.callOp]
@[simp] theorem State.popFrame_xT : s.popFrame.xT = s.xT := by
  unfold State.popFrame; split <;> rfl
@[simp] theorem State.callOp_xT : (s.callOp op a b body).xT = (body (s.pushFrame op a b)).xT := by
  simp [State.callOp]
@[simp] theorem State.popFrame_xM : s.popFrame.xM = s.xM := by
  unfold State.popFrame; split <;> rfl
@[simp] theorem State.callOp_xM : (s.callOp op a b body).xM = (body (s.pushFrame op a b)).xM := by
  simp [State.callOp]
@[simp] theorem State.popFrame_xR : s.popFrame.xR = s.xR := by
  unfold State.popFrame; split <;> rfl
@[simp] theorem State.callOp_xR : (s.callOp op a b body).xR = (body (s.pushFrame op a b)).xR := by
  simp [State.callOp]
@[simp] theorem State.popFrame_deadline : s.popFrame.deadline = s.deadline := by
  unfold State.popFrame; split <;> rfl
@[simp] theorem State.callOp_deadline : (s.callOp op a b body).deadline = (body (s.pushFrame op a b)).deadline := by
  simp [State.callOp]
@[simp] theorem State.popFrame_status : s.popFrame.status = s.status := by
  unfold State.popFrame; split <;> rfl
@[simp] theorem State.callOp_status : (s.callOp op a b body).status = (body (s.pushFrame op a b)).status := by
  simp [State.callOp]
@[simp] theorem State.popFrame_verstr : s.popFrame.verstr = s.verstr := by
  unfold State.popFrame; split <;> rfl
@[simp] theorem State.callOp_verstr : (s.callOp op a b body).verstr = (body (s.pushFrame op a b)).verstr := by
  simp [State.callOp]
@[simp] theorem State.popFrame_version : s.popFrame.version = s.version := by
  unfold State.popFrame; split <;> rfl
@[simp] theorem State.callOp_version : (s.callOp op a b body).version = (body (s.pushFrame op a b)).version := by
  simp [State.callOp]
@[simp] theorem State.popFrame_core : s.popFrame.core = s.core := by
  unfold State.popFrame; split <;> rfl
@[simp] theorem State.callOp_core : (s.callOp op a b body).core = (body (s.pushFrame op a b)).core := by
  simp [State.callOp]
@[simp] theorem State.popFrame_phycr4 : s.popFrame.phycr4 = s.phycr4 := by
  unfold State.popFrame; split <;> rfl
@[simp] theorem State.callOp_phycr4 : (s.callOp op a b body).phycr4 = (body (s.pushFrame op a b)).phycr4 := by
  simp [State.callOp]
@[simp] theorem State.popFrame_auxReadyAt : s.popFrame.auxReadyAt = s.auxReadyAt := by
  unfold State.popFrame; split <;> rfl
@[simp] theorem State.callOp_auxReadyAt : (s.callOp op a b body).auxReadyAt = (body (s.pushFrame op a b)).auxReadyAt := by
  simp [State.callOp]
@[simp] theorem State.popFrame_cpEvent : s.popFrame.cpEvent = s.cpEvent := by
  unfold State.popFrame; split <;> rfl
@[simp] theorem State.callOp_cpEvent : (s.callOp op a b body).cpEvent = (body (s.pushFrame op a b)).cpEvent := by
  simp [State.callOp]
@[simp] theorem State.popFrame_now : s.popFrame.now = s.now := by
  unfold State.popFrame; split <;> rfl
@[simp] theorem State.callOp_now : (s.callOp op a b body).now = (body (s.pushFrame op a b)).now := by
  simp [State.callOp]
@[simp] theorem State.popFrame_trace : s.popFrame.trace = s.trace := by
  unfold State.popFrame; split <;> rfl
@[simp] theorem State.callOp_trace : (s.callOp op a b body).trace = (body (s.pushFrame op a b)).trace := by
  simp [State.callOp]
@[simp] theorem State.popFrame_host : s.popFrame.host = s.host := by
  unfold State.popFrame; split <;> rfl
@[simp] theorem State.callOp_host : (s.callOp op a b body).host = (body (s.pushFrame op a b)).host := by
  simp [State.callOp]
@[simp] theorem State.popFrame_envScript : s.popFrame.envScript = s.envScript := by
  unfold State.popFrame; split <;> rfl
@[simp] theorem State.callOp_envScript : (s.callOp op a b body).envScript = (body (s.pushFrame op a b)).envScript := by
  simp [State.callOp]
@[simp] theorem State.popFrame_envTick : s.popFrame.envTick = s.envTick := by
  unfold State.popFrame; split <;> rfl
@[simp] theorem State.callOp_envTick : (s.callOp op a b body).envTick = (body (s.pushFrame op a b)).envTick := by
  simp [State.callOp]

@[simp] theorem State.callOp_held : (s.callOp op a b body).held = (body (s.pushFrame op a b)).held := by
  simp [State.held]
@[simp] theorem State.callOp_coreWord (q : CoreReg) :
    (s.callOp op a b body).coreWord q = (body (s.pushFrame op a b)).coreWord q := by
  cases q <;> simp [State.coreWord, CoreFile.get]

theorem State.callOp_xA (h : (body (s.pushFrame op a b)).retStack = ⟨s.pc, s.xA, s.xB⟩ :: s.retStack) :
    (s.callOp op a b body).xA = s.xA := by
  unfold State.callOp State.popFrame
  rw [h]
theorem State.callOp_xB (h : (body (s.pushFrame op a b)).retStack = ⟨s.pc, s.xA, s.xB⟩ :: s.retStack) :
    (s.callOp op a b body).xB = s.xB := by
  unfold State.callOp State.popFrame
  rw [h]
theorem State.callOp_retStack (h : (body (s.pushFrame op a b)).retStack = ⟨s.pc, s.xA, s.xB⟩ :: s.retStack) :
    (s.callOp op a b body).retStack = s.retStack := by
  unfold State.callOp State.popFrame
  rw [h]
theorem State.callOp_pc (h : (body (s.pushFrame op a b)).retStack = ⟨s.pc, s.xA, s.xB⟩ :: s.retStack) :
    (s.callOp op a b body).pc = s.pc.next := by
  unfold State.callOp State.popFrame
  rw [h]

end callOp

/-! ### Sequences -/

section sequences
variable (s : State)

@[simp] theorem State.intrEnSeq_attached : (s.intrEnSeq).attached = s.attached := by
  simp [State.intrEnSeq]
@[simp] theorem State.intrEnSeq_base : (s.intrEnSeq).base = s.base := by
  simp [State.intrEnSeq]
@[simp] theorem State.intrEnSeq_cfg : (s.intrEnSeq).cfg = s.cfg := by
  simp [State.intrEnSeq]
@[simp] theorem State.intrEnSeq_xA : (s.intrEnSeq).xA = s.xA := by
  simp [State.intrEnSeq]
@[simp] theorem State.intrEnSeq_xB : (s.intrEnSeq).xB = s.xB := by
  simp [State.intrEnSeq]
@[simp] theorem State.intrEnSeq_xR : (s.intrEnSeq).xR = s.xR := by
  simp [State.intrEnSeq]
@[simp] theorem State.intrEnSeq_deadline : (s.intrEnSeq).deadline = s.deadline := by
  simp [State.intrEnSeq]
@[simp] theorem State.intrEnSeq_status : (s.intrEnSeq).status = s.status := by
  simp [State.intrEnSeq]
@[simp] theorem State.intrEnSeq_retStack : (s.intrEnSeq).retStack = s.retStack := by
  simp [State.intrEnSeq]
@[simp] theorem State.intrEnSeq_verstr : (s.intrEnSeq).verstr = s.verstr := by
  simp [State.intrEnSeq]
@[simp] theorem State.intrEnSeq_version : (s.intrEnSeq).version = s.version := by
  simp [State.intrEnSeq]
@[simp] theorem State.intrEnSeq_auxReadyAt : (s.intrEnSeq).auxReadyAt = s.auxReadyAt := by
  simp [State.intrEnSeq, State.rmw]
@[simp] theorem State.intrEnSeq_host : (s.intrEnSeq).host = s.host := by
  simp [State.intrEnSeq]

@[simp] theorem State.intrDisSeq_attached : (s.intrDisSeq).attached = s.attached := by
  simp [State.intrDisSeq]
@[simp] theorem State.intrDisSeq_base : (s.intrDisSeq).base = s.base := by
  simp [State.intrDisSeq]
@[simp] theorem State.intrDisSeq_cfg : (s.intrDisSeq).cfg = s.cfg := by
  simp [State.intrDisSeq]
@[simp] theorem State.intrDisSeq_xA : (s.intrDisSeq).xA = s.xA := by
  simp [State.intrDisSeq]
@[simp] theorem State.intrDisSeq_xB : (s.intrDisSeq).xB = s.xB := by
  simp [State.intrDisSeq]
@[simp] theorem State.intrDisSeq_xR : (s.intrDisSeq).xR = s.xR := by
  simp [State.intrDisSeq]
@[simp] theorem State.intrDisSeq_deadline : (s.intrDisSeq).deadline = s.deadline := by
  simp [State.intrDisSeq]
@[simp] theorem State.intrDisSeq_status : (s.intrDisSeq).status = s.status := by
  simp [State.intrDisSeq]
@[simp] theorem State.intrDisSeq_retStack : (s.intrDisSeq).retStack = s.retStack := by
  simp [State.intrDisSeq]
@[simp] theorem State.intrDisSeq_verstr : (s.intrDisSeq).verstr = s.verstr := by
  simp [State.intrDisSeq]
@[simp] theorem State.intrDisSeq_version : (s.intrDisSeq).version = s.version := by
  simp [State.intrDisSeq]
@[simp] theorem State.intrDisSeq_auxReadyAt : (s.intrDisSeq).auxReadyAt = s.auxReadyAt := by
  simp [State.intrDisSeq, State.rmw]
@[simp] theorem State.intrDisSeq_host : (s.intrDisSeq).host = s.host := by
  simp [State.intrDisSeq]

@[simp] theorem State.erratumStage_attached : (s.erratumStage).attached = s.attached := by
  unfold State.erratumStage; split
  · simp
  · rfl
@[simp] theorem State.erratumStage_base : (s.erratumStage).base = s.base := by
  unfold State.erratumStage; split
  · simp
  · rfl
@[simp] theorem State.erratumStage_cfg : (s.erratumStage).cfg = s.cfg := by
  unfold State.erratumStage; split
  · simp
  · rfl
@[simp] theorem State.erratumStage_xA : (s.erratumStage).xA = s.xA := by
  unfold State.erratumStage; split
  · exact State.callOp_xA _ _ _ _ _ (by simp)
  · rfl
@[simp] theorem State.erratumStage_xB : (s.erratumStage).xB = s.xB := by
  unfold State.erratumStage; split
  · exact State.callOp_xB _ _ _ _ _ (by simp)
  · rfl
@[simp] theorem State.erratumStage_xR : (s.erratumStage).xR = s.xR := by
  unfold State.erratumStage; split
  · simp
  · rfl
@[simp] theorem State.erratumStage_deadline : (s.erratumStage).deadline = s.deadline := by
  unfold State.erratumStage; split
  · simp
  · rfl
@[simp] theorem State.erratumStage_status : (s.erratumStage).status = s.status := by
  unfold State.erratumStage; split
  · simp
  · rfl
@[simp] theorem State.erratumStage_retStack : (s.erratumStage).retStack = s.retStack := by
  unfold State.erratumStage; split
  · exact State.callOp_retStack _ _ _ _ _ (by simp)
  · rfl
@[simp] theorem State.erratumStage_verstr : (s.erratumStage).verstr = s.verstr := by
  unfold State.erratumStage; split
  · simp
  · rfl
@[simp] theorem State.erratumStage_version : (s.erratumStage).version = s.version := by
  unfold State.erratumStage; split
  · simp
  · rfl
@[simp] theorem State.erratumStage_auxReadyAt : (s.erratumStage).auxReadyAt = s.auxReadyAt := by
  unfold State.erratumStage; split
  · simp
  · rfl
@[simp] theorem State.erratumStage_host : (s.erratumStage).host = s.host := by
  unfold State.erratumStage; split
  · simp
  · rfl

@[simp] theorem State.cpStage_attached (f : Word → Word) : (s.cpStage f).attached = s.attached := by
  unfold State.cpStage; split
  · simp
  · rfl
@[simp] theorem State.cpStage_base (f : Word → Word) : (s.cpStage f).base = s.base := by
  unfold State.cpStage; split
  · simp
  · rfl
@[simp] theorem State.cpStage_cfg (f : Word → Word) : (s.cpStage f).cfg = s.cfg := by
  unfold State.cpStage; split
  · simp
  · rfl
@[simp] theorem State.cpStage_xA (f : Word → Word) : (s.cpStage f).xA = s.xA := by
  unfold State.cpStage; split
  · simp
  · rfl
@[simp] theorem State.cpStage_xB (f : Word → Word) : (s.cpStage f).xB = s.xB := by
  unfold State.cpStage; split
  · simp
  · rfl
@[simp] theorem State.cpStage_xR (f : Word → Word) : (s.cpStage f).xR = s.xR := by
  unfold State.cpStage; split
  · simp
  · rfl
@[simp] theorem State.cpStage_deadline (f : Word → Word) : (s.cpStage f).deadline = s.deadline := by
  unfold State.cpStage; split
  · simp
  · rfl
@[simp] theorem State.cpStage_status (f : Word → Word) : (s.cpStage f).status = s.status := by
  unfold State.cpStage; split
  · simp
  · rfl
@[simp] theorem State.cpStage_retStack (f : Word → Word) : (s.cpStage f).retStack = s.retStack := by
  unfold State.cpStage; split
  · simp
  · rfl
@[simp] theorem State.cpStage_verstr (f : Word → Word) : (s.cpStage f).verstr = s.verstr := by
  unfold State.cpStage; split
  · simp
  · rfl
@[simp] theorem State.cpStage_version (f : Word → Word) : (s.cpStage f).version = s.version := by
  unfold State.cpStage; split
  · simp
  · rfl
@[simp] theorem State.cpStage_auxReadyAt (f : Word → Word) : (s.cpStage f).auxReadyAt = s.auxReadyAt := by
  unfold State.cpStage; split
  · simp [State.rmw]
  · rfl
@[simp] theorem State.cpStage_host (f : Word → Word) : (s.cpStage f).host = s.host := by
  unfold State.cpStage; split
  · simp
  · rfl

@[simp] theorem State.globalIntrEnSeq_attached : (s.globalIntrEnSeq).attached = s.attached := by
  simp [State.globalIntrEnSeq]
@[simp] theorem State.globalIntrEnSeq_base : (s.globalIntrEnSeq).base = s.base := by
  simp [State.globalIntrEnSeq]
@[simp] theorem State.globalIntrEnSeq_cfg : (s.globalIntrEnSeq).cfg = s.cfg := by
  simp [State.globalIntrEnSeq]
@[simp] theorem State.globalIntrEnSeq_xA : (s.globalIntrEnSeq).xA = s.xA := by
  simp [State.globalIntrEnSeq, State.callOp_xA]
@[simp] theorem State.globalIntrEnSeq_xB : (s.globalIntrEnSeq).xB = s.xB := by
  simp [State.globalIntrEnSeq, State.callOp_xB]
@[simp] theorem State.globalIntrEnSeq_xR : (s.globalIntrEnSeq).xR = s.xR := by
  simp [State.globalIntrEnSeq]
@[simp] theorem State.globalIntrEnSeq_deadline : (s.globalIntrEnSeq).deadline = s.deadline := by
  simp [State.globalIntrEnSeq]
@[simp] theorem State.globalIntrEnSeq_status : (s.globalIntrEnSeq).status = s.status := by
  simp [State.globalIntrEnSeq]
@[simp] theorem State.globalIntrEnSeq_retStack : (s.globalIntrEnSeq).retStack = s.retStack := by
  simp [State.globalIntrEnSeq, State.callOp_retStack]
@[simp] theorem State.globalIntrEnSeq_verstr : (s.globalIntrEnSeq).verstr = s.verstr := by
  simp [State.globalIntrEnSeq]
@[simp] theorem State.globalIntrEnSeq_version : (s.globalIntrEnSeq).version = s.version := by
  simp [State.globalIntrEnSeq]
@[simp] theorem State.globalIntrEnSeq_auxReadyAt : (s.globalIntrEnSeq).auxReadyAt = s.auxReadyAt := by
  simp [State.globalIntrEnSeq, State.rmw]
@[simp] theorem State.globalIntrEnSeq_host : (s.globalIntrEnSeq).host = s.host := by
  simp [State.globalIntrEnSeq]

@[simp] theorem State.globalIntrDisSeq_attached : (s.globalIntrDisSeq).attached = s.attached := by
  simp [State.globalIntrDisSeq]
@[simp] theorem State.globalIntrDisSeq_base : (s.globalIntrDisSeq).base = s.base := by
  simp [State.globalIntrDisSeq]
@[simp] theorem State.globalIntrDisSeq_cfg : (s.globalIntrDisSeq).cfg = s.cfg := by
  simp [State.globalIntrDisSeq]
@[simp] theorem State.globalIntrDisSeq_xA : (s.globalIntrDisSeq).xA = s.xA := by
  simp [State.globalIntrDisSeq, State.callOp_xA]
@[simp] theorem State.globalIntrDisSeq_xB : (s.globalIntrDisSeq).xB = s.xB := by
  simp [State.globalIntrDisSeq, State.callOp_xB]
@[simp] theorem State.globalIntrDisSeq_xR : (s.globalIntrDisSeq).xR = s.xR := by
  simp [State.globalIntrDisSeq]
@[simp] theorem State.globalIntrDisSeq_deadline : (s.globalIntrDisSeq).deadline = s.deadline := by
  simp [State.globalIntrDisSeq]
@[simp] theorem State.globalIntrDisSeq_status : (s.globalIntrDisSeq).status = s.status := by
  simp [State.globalIntrDisSeq]
@[simp] theorem State.globalIntrDisSeq_retStack : (s.globalIntrDisSeq).retStack = s.retStack := by
  simp [State.globalIntrDisSeq, State.callOp_retStack]
@[simp] theorem State.globalIntrDisSeq_verstr : (s.globalIntrDisSeq).verstr = s.verstr := by
  simp [State.globalIntrDisSeq]
@[simp] theorem State.globalIntrDisSeq_version : (s.globalIntrDisSeq).version = s.version := by
  simp [State.globalIntrDisSeq]
@[simp] theorem State.globalIntrDisSeq_auxReadyAt : (s.globalIntrDisSeq).auxReadyAt = s.auxReadyAt := by
  simp [State.globalIntrDisSeq, State.rmw]
@[simp] theorem State.globalIntrDisSeq_host : (s.globalIntrDisSeq).host = s.host := by
  simp [State.globalIntrDisSeq]

@[simp] theorem State.setLanesPowerSeq_attached : (s.setLanesPowerSeq).attached = s.attached := by
  simp only [State.setLanesPowerSeq]; split_ifs <;> simp
@[simp] theorem State.setLanesPowerSeq_base : (s.setLanesPowerSeq).base = s.base := by
  simp only [State.setLanesPowerSeq]; split_ifs <;> simp
@[simp] theorem State.setLanesPowerSeq_cfg : (s.setLanesPowerSeq).cfg = s.cfg := by
  simp only [State.setLanesPowerSeq]; split_ifs <;> simp
@[simp] theorem State.setLanesPowerSeq_xA : (s.setLanesPowerSeq).xA = s.xA := by
  simp only [State.setLanesPowerSeq]; split_ifs <;> simp
@[simp] theorem State.setLanesPowerSeq_xB : (s.setLanesPowerSeq).xB = s.xB := by
  simp only [State.setLanesPowerSeq]; split_ifs <;> simp
@[simp] theorem State.setLanesPowerSeq_xR : (s.setLanesPowerSeq).xR = s.xR := by
  simp only [State.setLanesPowerSeq]; split_ifs <;> simp
@[simp] theorem State.setLanesPowerSeq_deadline : (s.setLanesPowerSeq).deadline = s.deadline := by
  simp only [State.setLanesPowerSeq]; split_ifs <;> simp
@[simp] theorem State.setLanesPowerSeq_status : (s.setLanesPowerSeq).status = s.status := by
  simp only [State.setLanesPowerSeq]; split_ifs <;> simp
@[simp] theorem State.setLanesPowerSeq_retStack : (s.setLanesPowerSeq).retStack = s.retStack := by
  simp only [State.setLanesPowerSeq]; split_ifs <;> simp
@[simp] theorem State.setLanesPowerSeq_verstr : (s.setLanesPowerSeq).verstr = s.verstr := by
  simp only [State.setLanesPowerSeq]; split_ifs <;> simp
@[simp] theorem State.setLanesPowerSeq_version : (s.setLanesPowerSeq).version = s.version := by
  simp only [State.setLanesPowerSeq]; split_ifs <;> simp
@[simp] theorem State.setLanesPowerSeq_auxReadyAt : (s.setLanesPowerSeq).auxReadyAt = s.auxReadyAt := by
  simp only [State.setLanesPowerSeq]; split_ifs <;> simp
@[simp] theorem State.setLanesPowerSeq_host : (s.setLanesPowerSeq).host = s.host := by
  simp only [State.setLanesPowerSeq]; split_ifs <;> simp

@[simp] theorem State.softResetSeq_attached : (s.softResetSeq).attached = s.attached := by
  simp [State.softResetSeq, State.srstAssert, State.srstDeassert]
@[simp] theorem State.softResetSeq_base : (s.softResetSeq).base = s.base := by
  simp [State.softResetSeq, State.srstAssert, State.srstDeassert]
@[simp] theorem State.softResetSeq_cfg : (s.softResetSeq).cfg = s.cfg := by
  simp [State.softResetSeq, State.srstAssert, State.srstDeassert]
@[simp] theorem State.softResetSeq_xA : (s.softResetSeq).xA = s.xA := by
  simp [State.softResetSeq, State.srstAssert, State.srstDeassert]
@[simp] theorem State.softResetSeq_xB : (s.softResetSeq).xB = s.xB := by
  simp [State.softResetSeq, State.srstAssert, State.srstDeassert]
@[simp] theorem State.softResetSeq_xR : (s.softResetSeq).xR = s.xR := by
  simp [State.softResetSeq, State.srstAssert, State.srstDeassert]
@[simp] theorem State.softResetSeq_deadline : (s.softResetSeq).deadline = s.deadline := by
  simp [State.softResetSeq, State.srstAssert, State.srstDeassert]
@[simp] theorem State.softResetSeq_status : (s.softResetSeq).status = s.status := by
  simp [State.softResetSeq, State.srstAssert, State.srstDeassert]
@[simp] theorem State.softResetSeq_retStack : (s.softResetSeq).retStack = s.retStack := by
  simp [State.softResetSeq, State.srstAssert, State.srstDeassert]
@[simp] theorem State.softResetSeq_verstr : (s.softResetSeq).verstr = s.verstr := by
  simp [State.softResetSeq, State.srstAssert, State.srstDeassert]
@[simp] theorem State.softResetSeq_version : (s.softResetSeq).version = s.version := by
  simp [State.softResetSeq, State.srstAssert, State.srstDeassert]
@[simp] theorem State.softResetSeq_auxReadyAt : (s.softResetSeq).auxReadyAt = s.auxReadyAt := by
  simp [State.softResetSeq, State.srstAssert, State.srstDeassert, State.rmw]
@[simp] theorem State.softResetSeq_host : (s.softResetSeq).host = s.host := by
  simp [State.softResetSeq, State.srstAssert, State.srstDeassert]

@[simp] theorem State.softResetAllSeq_attached : (s.softResetAllSeq).attached = s.attached := by
  simp [State.softResetAllSeq]
@[simp] theorem State.softResetAllSeq_base : (s.softResetAllSeq).base = s.base := by
  simp [State.softResetAllSeq]
@[simp] theorem State.softResetAllSeq_cfg : (s.softResetAllSeq).cfg = s.cfg := by
  simp [State.softResetAllSeq]
@[simp] theorem State.softResetAllSeq_xA : (s.softResetAllSeq).xA = s.xA := by
  exact State.callOp_xA _ _ _ _ _ (by simp)
@[simp] theorem State.softResetAllSeq_xB : (s.softResetAllSeq).xB = s.xB := by
  exact State.callOp_xB _ _ _ _ _ (by simp)
@[simp] theorem State.softResetAllSeq_xR : (s.softResetAllSeq).xR = s.xR := by
  simp [State.softResetAllSeq]
@[simp] theorem State.softResetAllSeq_deadline : (s.softResetAllSeq).deadline = s.deadline := by
  simp [State.softResetAllSeq]
@[simp] theorem State.softResetAllSeq_status : (s.softResetAllSeq).status = s.status := by
  simp [State.softResetAllSeq]
@[simp] theorem State.softResetAllSeq_retStack : (s.softResetAllSeq).retStack = s.retStack := by
  exact State.callOp_retStack _ _ _ _ _ (by simp)
@[simp] theorem State.softResetAllSeq_verstr : (s.softResetAllSeq).verstr = s.verstr := by
  simp [State.softResetAllSeq]
@[simp] theorem State.softResetAllSeq_version : (s.softResetAllSeq).version = s.version := by
  simp [State.softResetAllSeq]
@[simp] theorem State.softResetAllSeq_auxReadyAt : (s.softResetAllSeq).auxReadyAt = s.auxReadyAt := by
  simp [State.softResetAllSeq]
@[simp] theorem State.softResetAllSeq_host : (s.softResetAllSeq).host = s.host := by
  simp [State.softResetAllSeq]

@[simp] theorem State.phySoftResetSeq_attached : (s.phySoftResetSeq).attached = s.attached := by
  simp [State.phySoftResetSeq]
@[simp] theorem State.phySoftResetSeq_base : (s.phySoftResetSeq).base = s.base := by
  simp [State.phySoftResetSeq]
@[simp] theorem State.phySoftResetSeq_cfg : (s.phySoftResetSeq).cfg = s.cfg := by
  simp [State.phySoftResetSeq]
@[simp] theorem State.phySoftResetSeq_xA : (s.phySoftResetSeq).xA = s.xA := by
  exact State.callOp_xA _ _ _ _ _ (by simp)
@[simp] theorem State.phySoftResetSeq_xB : (s.phySoftResetSeq).xB = s.xB := by
  exact State.callOp_xB _ _ _ _ _ (by simp)
@[simp] theorem State.phySoftResetSeq_xR : (s.phySoftResetSeq).xR = s.xR := by
  simp [State.phySoftResetSeq]
@[simp] theorem State.phySoftResetSeq_deadline : (s.phySoftResetSeq).deadline = s.deadline := by
  simp [State.phySoftResetSeq]
@[simp] theorem State.phySoftResetSeq_status : (s.phySoftResetSeq).status = s.status := by
  simp [State.phySoftResetSeq]
@[simp] theorem State.phySoftResetSeq_retStack : (s.phySoftResetSeq).retStack = s.retStack := by
  exact State.callOp_retStack _ _ _ _ _ (by simp)
@[simp] theorem State.phySoftResetSeq_verstr : (s.phySoftResetSeq).verstr = s.verstr := by
  simp [State.phySoftResetSeq]
@[simp] theorem State.phySoftResetSeq_version : (s.phySoftResetSeq).version = s.version := by
  simp [State.phySoftResetSeq]
@[simp] theorem State.phySoftResetSeq_auxReadyAt : (s.phySoftResetSeq).auxReadyAt = s.auxReadyAt := by
  simp [State.phySoftResetSeq]
@[simp] theorem State.phySoftResetSeq_host : (s.phySoftResetSeq).host = s.host := by
  simp [State.phySoftResetSeq]

@[simp] theorem State.typecAckSeq_attached : (s.typecAckSeq).attached = s.attached := by
  simp [State.typecAckSeq]
@[simp] theorem State.typecAckSeq_base : (s.typecAckSeq).base = s.base := by
  simp [State.typecAckSeq]
@[simp] theorem State.typecAckSeq_cfg : (s.typecAckSeq).cfg = s.cfg := by
  simp [State.typecAckSeq]
@[simp] theorem State.typecAckSeq_xA : (s.typecAckSeq).xA = s.xA := by
  simp [State.typecAckSeq]
@[simp] theorem State.typecAckSeq_xB : (s.typecAckSeq).xB = s.xB := by
  simp [State.typecAckSeq]
@[simp] theorem State.typecAckSeq_xR : (s.typecAckSeq).xR = s.xR := by
  simp [State.typecAckSeq]
@[simp] theorem State.typecAckSeq_deadline : (s.typecAckSeq).deadline = s.deadline := by
  simp [State.typecAckSeq]
@[simp] theorem State.typecAckSeq_status : (s.typecAckSeq).status = s.status := by
  simp [State.typecAckSeq]
@[simp] theorem State.typecAckSeq_retStack : (s.typecAckSeq).retStack = s.retStack := by
  simp [State.typecAckSeq]
@[simp] theorem State.typecAckSeq_verstr : (s.typecAckSeq).verstr = s.verstr := by
  simp [State.typecAckSeq]
@[simp] theorem State.typecAckSeq_version : (s.typecAckSeq).version = s.version := by
  simp [State.typecAckSeq]
@[simp] theorem State.typecAckSeq_auxReadyAt : (s.typecAckSeq).auxReadyAt = s.auxReadyAt := by
  simp [State.typecAckSeq, State.rmwT]
@[simp] theorem State.typecAckSeq_host : (s.typecAckSeq).host = s.host := by
  simp [State.typecAckSeq]

@[simp] theorem State.phyWidthInit_attached : (s.phyWidthInit).attached = s.attached := by
  simp [State.phyWidthInit]
@[simp] theorem State.phyWidthInit_base : (s.phyWidthInit).base = s.base := by
  simp [State.phyWidthInit]
@[simp] theorem State.phyWidthInit_cfg : (s.phyWidthInit).cfg = s.cfg := by
  simp [State.phyWidthInit]
@[simp] theorem State.phyWidthInit_xA : (s.phyWidthInit).xA = s.xA := by
  simp [State.phyWidthInit]
@[simp] theorem State.phyWidthInit_xB : (s.phyWidthInit).xB = s.xB := by
  simp [State.phyWidthInit]
@[simp] theorem State.phyWidthInit_xR : (s.phyWidthInit).xR = s.xR := by
  simp [State.phyWidthInit]
@[simp] theorem State.phyWidthInit_deadline : (s.phyWidthInit).deadline = s.deadline := by
  simp [State.phyWidthInit]
@[simp] theorem State.phyWidthInit_status : (s.phyWidthInit).status = s.status := by
  simp [State.phyWidthInit]
@[simp] theorem State.phyWidthInit_retStack : (s.phyWidthInit).retStack = s.retStack := by
  simp [State.phyWidthInit]
@[simp] theorem State.phyWidthInit_verstr : (s.phyWidthInit).verstr = s.verstr := by
  simp [State.phyWidthInit]
@[simp] theorem State.phyWidthInit_version : (s.phyWidthInit).version = s.version := by
  simp [State.phyWidthInit]
@[simp] theorem State.phyWidthInit_auxReadyAt : (s.phyWidthInit).auxReadyAt = s.auxReadyAt := by
  simp [State.phyWidthInit, State.rmwT]
@[simp] theorem State.phyWidthInit_host : (s.phyWidthInit).host = s.host := by
  simp [State.phyWidthInit]

@[simp] theorem State.coreInitSeq_attached : (s.coreInitSeq).attached = s.attached := by
  simp [State.coreInitSeq, State.memRead]
@[simp] theorem State.coreInitSeq_base : (s.coreInitSeq).base = s.base := by
  simp [State.coreInitSeq, State.memRead]
@[simp] theorem State.coreInitSeq_cfg : (s.coreInitSeq).cfg = s.cfg := by
  simp [State.coreInitSeq, State.memRead]
@[simp] theorem State.coreInitSeq_xA : (s.coreInitSeq).xA = s.xA := by
  simp [State.coreInitSeq, State.memRead, State.callOp_xA]
@[simp] theorem State.coreInitSeq_xB : (s.coreInitSeq).xB = s.xB := by
  simp [State.coreInitSeq, State.memRead, State.callOp_xB]
@[simp] theorem State.coreInitSeq_xR : (s.coreInitSeq).xR = s.xR := by
  simp [State.coreInitSeq, State.memRead]
@[simp] theorem State.coreInitSeq_deadline : (s.coreInitSeq).deadline = s.deadline := by
  simp [State.coreInitSeq, State.memRead]
@[simp] theorem State.coreInitSeq_status : (s.coreInitSeq).status = s.status := by
  simp [State.coreInitSeq, State.memRead]
@[simp] theorem State.coreInitSeq_retStack : (s.coreInitSeq).retStack = s.retStack := by
  simp [State.coreInitSeq, State.memRead, State.callOp_retStack]
@[simp] theorem State.coreInitSeq_auxReadyAt : (s.coreInitSeq).auxReadyAt = s.auxReadyAt := by
  simp [State.coreInitSeq, State.memRead]
@[simp] theorem State.coreInitSeq_host : (s.coreInitSeq).host = s.host := by
  simp [State.coreInitSeq, State.memRead]

@[simp] theorem State.coreDeinitSeq_attached : (s.coreDeinitSeq).attached = s.attached := by
  simp [State.coreDeinitSeq]
@[simp] theorem State.coreDeinitSeq_base : (s.coreDeinitSeq).base = s.base := by
  simp [State.coreDeinitSeq]
@[simp] theorem State.coreDeinitSeq_cfg : (s.coreDeinitSeq).cfg = s.cfg := by
  simp [State.coreDeinitSeq]
@[simp] theorem State.coreDeinitSeq_xA : (s.coreDeinitSeq).xA = s.xA := by
  simp [State.coreDeinitSeq, State.callOp_xA]
@[simp] theorem State.coreDeinitSeq_xB : (s.coreDeinitSeq).xB = s.xB := by
  simp [State.coreDeinitSeq, State.callOp_xB]
@[simp] theorem State.coreDeinitSeq_xR : (s.coreDeinitSeq).xR = s.xR := by
  simp [State.coreDeinitSeq]
@[simp] theorem State.coreDeinitSeq_deadline : (s.coreDeinitSeq).deadline = s.deadline := by
  simp [State.coreDeinitSeq]
@[simp] theorem State.coreDeinitSeq_status : (s.coreDeinitSeq).status = s.status := by
  simp [State.coreDeinitSeq]
@[simp] theorem State.coreDeinitSeq_retStack : (s.coreDeinitSeq).retStack = s.retStack := by
  simp [State.coreDeinitSeq, State.callOp_retStack]
@[simp] theorem State.coreDeinitSeq_verstr : (s.coreDeinitSeq).verstr = s.verstr := by
  simp [State.coreDeinitSeq]
@[simp] theorem State.coreDeinitSeq_version : (s.coreDeinitSeq).version = s.version := by
  simp [State.coreDeinitSeq]
@[simp] theorem State.coreDeinitSeq_auxReadyAt : (s.coreDeinitSeq).auxReadyAt = s.auxReadyAt := by
  simp [State.coreDeinitSeq]
@[simp] theorem State.coreDeinitSeq_host : (s.coreDeinitSeq).host = s.host := by
  simp [State.coreDeinitSeq]

@[simp] theorem State.selectLanes_attached (k : PerLane BitPos) : (s.selectLanes k).attached = s.attached := by
  unfold State.selectLanes; split <;> simp
@[simp] theorem State.selectLanes_base (k : PerLane BitPos) : (s.selectLanes k).base = s.base := by
  unfold State.selectLanes; split <;> simp
@[simp] theorem State.selectLanes_cfg (k : PerLane BitPos) : (s.selectLanes k).cfg = s.cfg := by
  unfold State.selectLanes; split <;> simp
@[simp] theorem State.selectLanes_xA (k : PerLane BitPos) : (s.selectLanes k).xA = s.xA := by
  unfold State.selectLanes; split <;> simp
@[simp] theorem State.selectLanes_xB (k : PerLane BitPos) : (s.selectLanes k).xB = s.xB := by
  unfold State.selectLanes; split <;> simp
@[simp] theorem State.selectLanes_xR (k : PerLane BitPos) : (s.selectLanes k).xR = s.xR := by
  unfold State.selectLanes; split <;> simp
@[simp] theorem State.selectLanes_deadline (k : PerLane BitPos) : (s.selectLanes k).deadline = s.deadline := by
  unfold State.selectLanes; split <;> simp
@[simp] theorem State.selectLanes_status (k : PerLane BitPos) : (s.selectLanes k).status = s.status := by
  unfold State.selectLanes; split <;> simp
@[simp] theorem State.selectLanes_retStack (k : PerLane BitPos) : (s.selectLanes k).retStack = s.retStack := by
  unfold State.selectLanes; split <;> simp
@[simp] theorem State.selectLanes_verstr (k : PerLane BitPos) : (s.selectLanes k).verstr = s.verstr := by
  unfold State.selectLanes; split <;> simp
@[simp] theorem State.selectLanes_version (k : PerLane BitPos) : (s.selectLanes k).version = s.version := by
  unfold State.selectLanes; split <;> simp
@[simp] theorem State.selectLanes_auxReadyAt (k : PerLane BitPos) : (s.selectLanes k).auxReadyAt = s.auxReadyAt := by
  unfold State.selectLanes; split <;> simp
@[simp] theorem State.selectLanes_host (k : PerLane BitPos) : (s.selectLanes k).host = s.host := by
  unfold State.selectLanes; split <;> simp

end sequences

end Sys2Proof.Machine
end

