-- ==== Sys2Proof/Laws/Frames.lean ====
section
/-! SUPPORT. Frames of the micro-steps: which registers each one keeps with no reset held, once and composable. -/

namespace Sys2Proof.Machine

theorem FileKept.refl (s : State) (l : List CoreReg) : FileKept s s l := ⟨fun r _ => RegKept.refl s r, rfl⟩

/-- Frames compose along a run that keeps the configuration. -/
theorem FileKept.trans {s t u : State} {l : List CoreReg} (hc : t.cfg = s.cfg) (h : FileKept s t l)
    (h' : FileKept t u l) : FileKept s u l :=
  ⟨fun r hr => (h.1 r hr).trans hc (h'.1 r hr), h'.2.trans h.2⟩

/-- A frame with fewer exceptions is one with more. -/
theorem FileKept.mono {s t : State} {l l' : List CoreReg} (h : FileKept s t l) (hl : ∀ r ∈ l, r ∈ l') :
    FileKept s t l' := ⟨fun r hr => h.1 r (fun h2 => hr (hl r h2)), h.2⟩

section micro
variable (s : State) (l : List CoreReg)

theorem State.envMove_fileKept (h0 : s.held = 0#32) : FileKept s s.envMove l :=
  ⟨fun r _ => State.envMove_regKept s h0 r, State.envMove_phycr4 s h0⟩
theorem State.ret_fileKept (st : Status) (v : Word) (h0 : s.held = 0#32) : FileKept s (s.ret st v) l :=
  ⟨fun r _ => State.ret_regKept s st v h0 r, by simp [State.envMove_phycr4 s h0]⟩
theorem State.readT_fileKept (r : CoreReg) (h0 : s.held = 0#32) : FileKept s (s.readT r) l :=
  ⟨fun q _ => State.readT_regKept s r q h0, by simp [State.envMove_phycr4 s h0]⟩
theorem State.logEvent_fileKept (id : LogId) (h0 : s.held = 0#32) : FileKept s (s.logEvent id) l :=
  ⟨fun q _ => State.logEvent_regKept s id h0 q, by simp [State.envMove_phycr4 s h0]⟩
theorem State.callSecure_fileKept (h0 : s.held = 0#32) : FileKept s s.callSecure l :=
  ⟨fun q _ => State.callSecure_regKept s h0 q, by simp [State.envMove_phycr4 s h0]⟩
theorem State.wait_fileKept (d : Nat) (h0 : s.held = 0#32) : FileKept s (s.wait d) l :=
  ⟨fun q _ => State.wait_regKept s d h0 q, by simp [State.envMove_phycr4 s h0]⟩
theorem State.memWrite_fileKept (r : CoreReg) (v : Word) (h0 : s.held = 0#32) (hr : r ∈ l) :
    FileKept s (s.memWrite r v) l :=
  ⟨fun q hq => State.memWrite_regKept s r q v h0 (fun e => hq (e ▸ hr)), State.memWrite_phycr4 s r v h0⟩
theorem State.rmw_fileKept (r : CoreReg) (f : Word → Word) (h0 : s.held = 0#32) (hr : r ∈ l) :
    FileKept s (s.rmw r f) l :=
  ⟨fun q hq => State.rmw_regKept s r q f h0 (fun e => hq (e ▸ hr)), State.rmw_phycr4 s r f h0⟩
theorem State.rmwT_fileKept (r : CoreReg) (f : Word → Word) (h0 : s.held = 0#32) (hr : r ∈ l) :
    FileKept s (s.rmwT r f) l :=
  ⟨fun q hq => State.rmwT_regKept s r q f h0 (fun e => hq (e ▸ hr)), State.rmwT_phycr4 s r f h0⟩
theorem State.raiseError_fileKept (id : LogId) (st : Status) (v : Word) (h0 : s.held = 0#32) :
    FileKept s (s.raiseError id st v) l :=
  (s.logEvent_fileKept l id h0).trans (by simp) (State.ret_fileKept _ l st v (by simpa using h0))

end micro

/-! ### Registers that HW neither drives nor fires -/

theorem State.envMove_whole (s : State) (r : CoreReg) (h0 : s.held = 0#32) (hw : wholeRw r = true) :
    s.envMove.coreWord r = s.coreWord r := (State.envMove_regKept s h0 r).eq_of_wholeRw hw
theorem State.ret_whole (s : State) (r : CoreReg) (st : Status) (v : Word) (h0 : s.held = 0#32)
    (hw : wholeRw r = true) : (s.ret st v).coreWord r = s.coreWord r :=
  (State.ret_regKept s st v h0 r).eq_of_wholeRw hw

/-- A write takes no time of its own: the clock is that of its gap (R27). -/
@[simp] theorem State.memWrite_now (s : State) (r : CoreReg) (v : Word) : (s.memWrite r v).now = s.envMove.now := by
  simp [State.memWrite]

/-! ### The AUX settle window: only a write to AUX_CTRL moves it (R53) -/

@[simp] theorem State.rmw_auxReadyAt_ne (s : State) (r : CoreReg) (f : Word → Word) (h : r ≠ .auxCtrl) :
    (s.rmw r f).auxReadyAt = s.auxReadyAt := by
  simp [State.rmw, h]
@[simp] theorem State.rmwT_auxReadyAt_ne (s : State) (r : CoreReg) (f : Word → Word) (h : r ≠ .auxCtrl) :
    (s.rmwT r f).auxReadyAt = s.auxReadyAt := by
  simp [State.rmwT, h]

/-! ### A command that is one read-modify-write -/

/-- The frame of a read-modify-write and its `ret`, whatever the register (R80). -/
theorem State.rmwRet_fileKept (s : State) (r : CoreReg) (f : Word → Word) (st : Status) (v : Word)
    (h0 : s.held = 0#32) (hr : r ≠ .srstCtrl) : FileKept s ((s.rmw r f).ret st v) [r] :=
  (s.rmw_fileKept [r] r f h0 (by simp)).trans (by simp)
    (State.ret_fileKept _ _ st v (by rw [State.rmw_held _ _ _ hr]; exact h0))
theorem State.rmwTRet_fileKept (s : State) (r : CoreReg) (f : Word → Word) (st : Status) (v : Word)
    (h0 : s.held = 0#32) (hr : r ≠ .srstCtrl) : FileKept s ((s.rmwT r f).ret st v) [r] :=
  (s.rmwT_fileKept [r] r f h0 (by simp)).trans (by simp)
    (State.ret_fileKept _ _ st v (by rw [State.rmwT_held _ _ _ hr]; exact h0))

/-- The word it leaves in a register that HW neither drives nor fires (R80). -/
theorem State.rmwRet_whole (s : State) (r : CoreReg) (f : Word → Word) (st : Status) (v : Word)
    (h0 : s.held = 0#32) (hr : stored r) (hw : wholeRw r = true) (hs : r ≠ .srstCtrl) :
    ((s.rmw r f).ret st v).coreWord r = f (s.coreWord r) := by
  rw [State.ret_whole _ _ _ _ (by rw [State.rmw_held _ _ _ hs]; exact h0) hw, State.rmw_whole s r f h0 hr hw]
theorem State.rmwTRet_whole (s : State) (r : CoreReg) (f : Word → Word) (st : Status) (v : Word)
    (h0 : s.held = 0#32) (hr : stored r) (hw : wholeRw r = true) (hs : r ≠ .srstCtrl) :
    ((s.rmwT r f).ret st v).coreWord r = f (s.coreWord r) := by
  rw [State.ret_whole _ _ _ _ (by rw [State.rmwT_held _ _ _ hs]; exact h0) hw, State.rmwT_whole s r f h0 hr hw]

theorem State.le_rmwRet_now (s : State) (r : CoreReg) (f : Word → Word) (st : Status) (v : Word) :
    s.now ≤ ((s.rmw r f).ret st v).now := (s.le_rmw_now r f).trans (State.le_ret_now _ _ _)
theorem State.le_rmwTRet_now (s : State) (r : CoreReg) (f : Word → Word) (st : Status) (v : Word) :
    s.now ≤ ((s.rmwT r f).ret st v).now := (s.le_rmwT_now r f).trans (State.le_ret_now _ _ _)

/-- The word that a read-modify-write of PHYIF_CTRL and its `ret` leave outside the BUSY bits (R40, R56). -/
theorem State.rmwRet_phyif (s : State) (f : Word → Word) (st : Status) (v : Word) (h0 : s.held = 0#32) :
    ((s.rmw .phyifCtrl f).ret st v).core.phyifCtrl &&& ~~~s.cfg.map.busy.allMask
      = f s.envMove.core.phyifCtrl &&& ~~~s.cfg.map.busy.allMask := by
  have h := State.envMove_phyif (s.rmw .phyifCtrl f) (by rw [State.rmw_held _ _ _ (by decide)]; exact h0)
  simp only [State.rmw_cfg, State.rmw_phyif] at h
  simpa using h
theorem State.rmwTRet_phyif (s : State) (f : Word → Word) (st : Status) (v : Word) (h0 : s.held = 0#32) :
    ((s.rmwT .phyifCtrl f).ret st v).core.phyifCtrl &&& ~~~s.cfg.map.busy.allMask
      = f s.envMove.core.phyifCtrl &&& ~~~s.cfg.map.busy.allMask := by
  have h := State.envMove_phyif (s.rmwT .phyifCtrl f) (by rw [State.rmwT_held _ _ _ (by decide)]; exact h0)
  simp only [State.rmwT_cfg, State.rmwT_phyif] at h
  simpa using h

/-! ### SRST_CTRL: only the reset sequencer's own writes change it (R277) -/

section srst
variable (s : State)

@[simp] theorem State.intrEnSeq_srst : s.intrEnSeq.core.srstCtrl = s.core.srstCtrl :=
  State.rmw_srst_ne s .ien _ (by decide)
@[simp] theorem State.intrDisSeq_srst : s.intrDisSeq.core.srstCtrl = s.core.srstCtrl :=
  State.rmw_srst_ne s .ien _ (by decide)
@[simp] theorem State.erratumStage_srst : s.erratumStage.core.srstCtrl = s.core.srstCtrl := by
  unfold State.erratumStage; split <;> simp
@[simp] theorem State.cpStage_srst (f : Word → Word) : (s.cpStage f).core.srstCtrl = s.core.srstCtrl := by
  unfold State.cpStage; split
  · rw [State.rmw_srst_ne _ _ _ (by decide)]; simp
  · rfl
@[simp] theorem State.globalIntrEnSeq_srst : s.globalIntrEnSeq.core.srstCtrl = s.core.srstCtrl := by
  simp only [State.globalIntrEnSeq, State.cpStage_srst]
  rw [State.rmw_srst_ne _ _ _ (by decide), State.rmw_srst_ne _ _ _ (by decide)]
  simp
@[simp] theorem State.globalIntrDisSeq_srst : s.globalIntrDisSeq.core.srstCtrl = s.core.srstCtrl := by
  simp only [State.globalIntrDisSeq, State.cpStage_srst]
  rw [State.rmw_srst_ne _ _ _ (by decide), State.rmw_srst_ne _ _ _ (by decide)]
  simp
@[simp] theorem State.typecAckSeq_srst : s.typecAckSeq.core.srstCtrl = s.core.srstCtrl :=
  State.rmwT_srst_ne s .typeCCtrl _ (by decide)
@[simp] theorem State.phyWidthInit_srst : s.phyWidthInit.core.srstCtrl = s.core.srstCtrl :=
  State.rmwT_srst_ne s .phyifCtrl _ (by decide)
@[simp] theorem State.auxResetSeq_srst : s.auxResetSeq.core.srstCtrl = s.core.srstCtrl := by
  simp only [State.auxResetSeq, State.wait_core, State.envMove_srstCtrl]
  exact State.rmwT_srst_ne s .auxCtrl _ (by decide)
@[simp] theorem State.setLanesPowerSeq_srst : s.setLanesPowerSeq.core.srstCtrl = s.core.srstCtrl := by
  unfold State.setLanesPowerSeq
  simp only
  split <;> split <;> simp [State.memWrite_srst_ne]
@[simp] theorem State.selectLanes_srst (k : PerLane BitPos) : (s.selectLanes k).core.srstCtrl = s.core.srstCtrl := by
  unfold State.selectLanes
  simp only
  split <;> simp
@[simp] theorem State.setLevel_srst (fields : PerLane Field) :
    (s.setLevel fields).core.srstCtrl = s.core.srstCtrl := by
  unfold State.setLevel
  simp only
  split
  · simp
  · simp only [State.ret_core, State.envMove_srstCtrl]
    rw [State.rmw_srst_ne _ _ _ (by decide)]
    split <;> simp

end srst

/-! ### The scripted gaps: each micro-step consumes one (R13) -/

section script
variable (s : State)

@[simp] theorem State.readT_envScript (r : CoreReg) : (s.readT r).envScript = s.envScript.tail := by
  simp [State.readT, State.memRead, State.envMove_envScript]
@[simp] theorem State.memWrite_envScript (r : CoreReg) (v : Word) :
    (s.memWrite r v).envScript = s.envScript.tail := by
  simp [State.memWrite, State.storeCore, State.envMove_envScript]
@[simp] theorem State.wait_envScript (d : Nat) : (s.wait d).envScript = s.envScript.tail := by
  simp [State.wait, State.envMove_envScript]
@[simp] theorem State.logEvent_envScript (id : LogId) : (s.logEvent id).envScript = s.envScript.tail := by
  simp [State.logEvent, State.envMove_envScript]

/-- A quiet gap: only time passes, and one quiet gap fewer is known. -/
theorem HwQuiet.head {n : Nat} {s : State} (h : HwQuiet (n + 1) s) :
    s.envMove = s.timeStep s.nextEnv ∧ ∀ t : State, t.envScript = s.envScript.tail → HwQuiet n t := by
  obtain ⟨hl, hq⟩ := h
  match hs : s.envScript with
  | [] => simp [hs] at hl
  | e :: rest =>
    rw [hs] at hl hq
    simp only [List.take_succ_cons, List.mem_cons, forall_eq_or_imp] at hq
    have hn : s.nextEnv = e := by simp [State.nextEnv, hs]
    refine ⟨State.envMove_of_quiet s (by rw [hn]; exact hq.1), fun t ht => ?_⟩
    rw [HwQuiet, ht]
    exact ⟨by simpa using hl, hq.2⟩

end script

end Sys2Proof.Machine
end

