-- ==== Sys2Proof/Laws/Lines.lean ====
section
/-! SUPPORT. The record of the interrupt lines (R242): every step of HW and every micro-step adds one sample, of the state
it leaves, and none is taken back. -/

namespace Sys2Proof.Machine

/-- What a sample holds of the state it is taken in. -/
def State.sample (s : State) : LineSample := ⟨s.now, s.trace.length, s.irqOut, s.cpIrqOut⟩

section lines
variable (s : State)

theorem State.sampled_lines_eq : s.sampled.lines = s.lines ++ [s.sample] := rfl

/-- A micro-step ends with the sample of the state it leaves. -/
theorem State.done_sample (e : Event) : (s.done e).lines = s.lines ++ [(s.done e).sample] := rfl
/-- A command ends with the sample of the state it leaves. -/
theorem State.finish_sample (st : Status) (v : Word) :
    (s.finish st v).lines = s.lines ++ [(s.finish st v).sample] := rfl

@[simp] theorem State.storeCore_lines (r : CoreReg) (v : Word) : (s.storeCore r v).lines = s.lines := by
  simp [State.storeCore]

/-- A step of HW ends with the sample of the state it leaves. -/
theorem State.hwStep_sample (h : HwStep) : (s.hwStep h).lines = s.lines ++ [(s.hwStep h).sample] := by
  unfold State.hwStep
  split <;> exact congrArg (· ++ _) (State.latchHpd_lines _ _)

theorem State.hwSteps_lines (hs : List HwStep) : s.lines <+: (s.hwSteps hs).lines := by
  induction hs generalizing s with
  | nil => exact List.prefix_rfl
  | cons h hs ih => exact (s.hwStep_sample h ▸ List.prefix_append _ _).trans (ih (s.hwStep h))

theorem State.envMove_lines : s.lines <+: s.envMove.lines :=
  State.hwSteps_lines (s.timeStep s.nextEnv) s.nextEnv.hw

/-- A write records the levels it leaves, after one more trace entry. -/
theorem State.memWrite_lines (r : CoreReg) (v : Word) :
    (s.memWrite r v).lines = s.envMove.lines ++ [(s.memWrite r v).sample] := by
  rw [State.memWrite, State.done_sample, State.storeCore_lines]

theorem State.readT_lines (r : CoreReg) : (s.readT r).lines = s.envMove.lines ++ [(s.readT r).sample] := rfl
theorem State.phycrWrite_lines (v : Word) :
    (s.phycrWrite v).lines = s.envMove.lines ++ [(s.phycrWrite v).sample] := rfl
theorem State.wait_lines (d : Nat) : (s.wait d).lines = s.envMove.lines ++ [(s.wait d).sample] := rfl
theorem State.logEvent_lines (id : LogId) :
    (s.logEvent id).lines = s.envMove.lines ++ [(s.logEvent id).sample] := rfl
theorem State.callSecure_lines : s.callSecure.lines = s.envMove.lines ++ [s.callSecure.sample] := rfl
/-- The last sample of a command is that of the state it ends in. -/
theorem State.ret_lines (st : Status) (v : Word) :
    (s.ret st v).lines = s.envMove.lines ++ [(s.ret st v).sample] := rfl

/-- A read-modify-write records the levels that its write leaves. -/
theorem State.rmw_lines (r : CoreReg) (f : Word → Word) :
    ∃ more, (s.rmw r f).lines = s.lines ++ more ++ [(s.rmw r f).sample] := by
  obtain ⟨p, hp⟩ := s.envMove_lines
  obtain ⟨q, hq⟩ := (s.readT r).envMove_lines
  refine ⟨p ++ [(s.readT r).sample] ++ q, ?_⟩
  rw [show (s.rmw r f).lines = _ from State.memWrite_lines (s.readT r) r _, ← hq, State.readT_lines, ← hp]
  simp only [List.append_assoc]; rfl

/-- A nested call records what its body records. -/
@[simp] theorem State.popFrame_lines : s.popFrame.lines = s.lines := by
  unfold State.popFrame; split <;> rfl
theorem State.callOp_lines (op : Op) (a b : Word) (body : State → State) :
    (s.callOp op a b body).lines = (body (s.pushFrame op a b)).lines := by
  simp [State.callOp]

end lines

end Sys2Proof.Machine
end

