-- ==== Sys2Proof/Laws/Maps.lean ====
section
/-! SUPPORT. What a well-formed register map gives (R117): one lemma per condition, in the form proofs use. -/

namespace Sys2Proof

/-- Two masks of a pairwise disjoint list, by their places. -/
theorem disjointMasks_pair {l : List Word} (h : disjointMasks l = true) {i j : Nat} {x y : Word} (hij : i < j)
    (hx : l[i]? = some x) (hy : l[j]? = some y) : x &&& y = 0#32 := by
  have h1 := List.pairwise_iff_getElem.mp (of_decide_eq_true h)
  obtain ⟨hi, rfl⟩ := List.getElem?_eq_some_iff.mp hx
  obtain ⟨hj, rfl⟩ := List.getElem?_eq_some_iff.mp hy
  exact h1 i j hi hj hij

theorem and_or_eq_zero {x y z : Word} (h : x &&& y = 0#32) (h' : x &&& z = 0#32) : x &&& (y ||| z) = 0#32 := by
  have h1 := (and_mask_eq_zero_iff x y).mp h
  have h2 := (and_mask_eq_zero_iff x z).mp h'
  refine (and_mask_eq_zero_iff _ _).mpr fun i hi hm => ?_
  rw [BitVec.getLsbD_or, Bool.or_eq_true] at hm
  exact hm.elim (h1 i hi) (h2 i hi)

theorem or_and_eq_zero {x y z : Word} (h : y &&& x = 0#32) (h' : z &&& x = 0#32) : (y ||| z) &&& x = 0#32 := by
  rw [BitVec.and_comm] at h h' ⊢
  exact and_or_eq_zero h h'

/-- A mask disjoint from each lane's bit is disjoint from all four. -/
theorem and_allMask_eq_zero {x : Word} {p : PerLane BitPos} (h : ∀ q ∈ p.toList, x &&& bitMask q = 0#32) :
    x &&& p.allMask = 0#32 :=
  and_or_eq_zero (and_or_eq_zero (and_or_eq_zero (h _ (by simp [PerLane.toList])) (h _ (by simp [PerLane.toList])))
    (h _ (by simp [PerLane.toList]))) (h _ (by simp [PerLane.toList]))

section
variable {c : Cfg} (h : c.wf = true)
include h

theorem Cfg.wf_fields : c.map.wfFields = true := by simp [Cfg.wf, RegMap.wf] at h; simp [h]
theorem Cfg.wf_phyif : c.map.wfPhyif = true := by simp [Cfg.wf, RegMap.wf] at h; simp [h]
theorem Cfg.wf_widths : c.map.wfWidths = true := by simp [Cfg.wf, RegMap.wf] at h; simp [h]
theorem Cfg.wf_txEq : c.map.wfTxEq = true := by simp [Cfg.wf, RegMap.wf] at h; simp [h]
theorem Cfg.wf_ien : c.map.wfIen = true := by simp [Cfg.wf, RegMap.wf] at h; simp [h]
theorem Cfg.wf_typec : c.map.wfTypec = true := by simp [Cfg.wf, RegMap.wf] at h; simp [h]
theorem Cfg.wf_pwrdown : c.map.wfPwrdown = true := by simp [Cfg.wf, RegMap.wf] at h; simp [h]
theorem Cfg.wf_rates : c.map.wfRates = true := by simp [Cfg.wf, RegMap.wf] at h; simp [h]

/-- The PHYIF_CTRL masks with the per-lane power-down bits (R117 b). -/
theorem Cfg.wf_phyif_lane : disjointMasks (c.map.pwrdownLane.toList.map bitMask ++ c.map.phyifMasks) = true := by
  have := Cfg.wf_phyif h
  simp only [RegMap.wfPhyif, Bool.and_eq_true] at this
  exact this.2

/-- The PHYIF_CTRL masks with the combined power-down field (R117 b). -/
theorem Cfg.wf_phyif_comb : disjointMasks (c.map.pwrdownComb.mask :: c.map.phyifMasks) = true := by
  have := Cfg.wf_phyif h
  simp only [RegMap.wfPhyif, Bool.and_eq_true] at this
  exact this.1

end

end Sys2Proof
end

