-- ==== Sys2Proof/Laws/PerInstr.lean ====
section
/-! SUPPORT. The fields of a command word read back, and the per-instruction family `OpcodeByte`: an encoded
command carries the op byte that R102 gives it, so none is encoded as a neighbour. -/

namespace Sys2Proof.Laws

/-- A command word as a number: op, first operand, second operand, most significant first (R100). -/
theorem cmdWord_toNat (op : BitVec 8) (a b : Word) :
    (cmdWord op a b).toNat = op.toNat * 2 ^ 64 + a.toNat * 2 ^ 32 + b.toNat := by
  have hb := b.isLt
  have ha := a.isLt
  simp only [cmdWord, BitVec.toNat_append]
  rw [← Nat.shiftLeft_add_eq_or_of_lt (a := a.toNat) hb, ← Nat.shiftLeft_add_eq_or_of_lt]
  · simp only [Nat.shiftLeft_eq]; omega
  · simp only [Nat.shiftLeft_eq]; omega

/-- The op field of a command word is the op it was built from (R100). -/
theorem cmdWord_op (op : BitVec 8) (a b : Word) : (cmdWord op a b).op = op := by
  have hb := b.isLt; have ha := a.isLt; have ho := op.isLt
  apply BitVec.eq_of_toNat_eq
  simp only [CmdWord.op, BitVec.extractLsb'_toNat, cmdWord_toNat, Nat.shiftRight_eq_div_pow]
  omega

/-- The first operand of a command word is the one it was built from (R100). -/
theorem cmdWord_a (op : BitVec 8) (a b : Word) : (cmdWord op a b).a = a := by
  have hb := b.isLt; have ha := a.isLt; have ho := op.isLt
  apply BitVec.eq_of_toNat_eq
  simp only [CmdWord.a, BitVec.extractLsb'_toNat, cmdWord_toNat, Nat.shiftRight_eq_div_pow]
  omega

/-- The second operand of a command word is the one it was built from (R100). -/
theorem cmdWord_b (op : BitVec 8) (a b : Word) : (cmdWord op a b).b = b := by
  have hb := b.isLt; have ha := a.isLt; have ho := op.isLt
  apply BitVec.eq_of_toNat_eq
  simp only [CmdWord.b, BitVec.extractLsb'_toNat, cmdWord_toNat, Nat.shiftRight_eq_div_pow]
  omega

/-- The opcode that R102 gives each command. -/
def opcodeOf : Instr → Nat
  | .regRead _ _ => 0x00
  | .regWrite _ _ => 0x01
  | .intrEn _ _ => 0x10
  | .intrDis _ _ => 0x11
  | .globalIntrEn _ _ => 0x12
  | .globalIntrDis _ _ => 0x13
  | .globalIntrClear _ _ => 0x14
  | .softReset _ _ => 0x20
  | .softResetAll _ _ => 0x21
  | .phySoftReset _ _ => 0x22
  | .typecAck _ _ => 0x23
  | .auxReset _ _ => 0x24
  | .coreInit _ _ => 0x25
  | .checkCoreId _ _ => 0x26
  | .coreDeinit _ _ => 0x27
  | .setLanesPower _ _ => 0x30
  | .getLanes _ _ => 0x31
  | .setLanes _ _ => 0x32
  | .setRate _ _ => 0x33
  | .getRate _ _ => 0x34
  | .waitBusy _ _ => 0x35
  | .setPreEmphasis _ _ => 0x36
  | .setVswing _ _ => 0x37
  | .setPattern _ _ => 0x38
  | .enableXmit _ _ => 0x39
  | .rateToBw _ _ => 0x40
  | .bwToRate _ _ => 0x41

/-- The op byte of the encoding is the command's opcode (R100, R102). -/
def OpcodeByte.Statement (i : Instr) : Prop := (encode i).op.toNat = opcodeOf i

theorem OpcodeByte.regRead (a b : Word) : OpcodeByte.Statement (.regRead a b) := by
  simp [OpcodeByte.Statement, encode, opcodeOf, cmdWord_op]

theorem OpcodeByte.regWrite (a b : Word) : OpcodeByte.Statement (.regWrite a b) := by
  simp [OpcodeByte.Statement, encode, opcodeOf, cmdWord_op]

theorem OpcodeByte.intrEn (a b : Word) : OpcodeByte.Statement (.intrEn a b) := by
  simp [OpcodeByte.Statement, encode, opcodeOf, cmdWord_op]

theorem OpcodeByte.intrDis (a b : Word) : OpcodeByte.Statement (.intrDis a b) := by
  simp [OpcodeByte.Statement, encode, opcodeOf, cmdWord_op]

theorem OpcodeByte.globalIntrEn (a b : Word) : OpcodeByte.Statement (.globalIntrEn a b) := by
  simp [OpcodeByte.Statement, encode, opcodeOf, cmdWord_op]

theorem OpcodeByte.globalIntrDis (a b : Word) : OpcodeByte.Statement (.globalIntrDis a b) := by
  simp [OpcodeByte.Statement, encode, opcodeOf, cmdWord_op]

theorem OpcodeByte.globalIntrClear (a b : Word) : OpcodeByte.Statement (.globalIntrClear a b) := by
  simp [OpcodeByte.Statement, encode, opcodeOf, cmdWord_op]

theorem OpcodeByte.softReset (a b : Word) : OpcodeByte.Statement (.softReset a b) := by
  simp [OpcodeByte.Statement, encode, opcodeOf, cmdWord_op]

theorem OpcodeByte.softResetAll (a b : Word) : OpcodeByte.Statement (.softResetAll a b) := by
  simp [OpcodeByte.Statement, encode, opcodeOf, cmdWord_op]

theorem OpcodeByte.phySoftReset (a b : Word) : OpcodeByte.Statement (.phySoftReset a b) := by
  simp [OpcodeByte.Statement, encode, opcodeOf, cmdWord_op]

theorem OpcodeByte.typecAck (a b : Word) : OpcodeByte.Statement (.typecAck a b) := by
  simp [OpcodeByte.Statement, encode, opcodeOf, cmdWord_op]

theorem OpcodeByte.auxReset (a b : Word) : OpcodeByte.Statement (.auxReset a b) := by
  simp [OpcodeByte.Statement, encode, opcodeOf, cmdWord_op]

theorem OpcodeByte.coreInit (a b : Word) : OpcodeByte.Statement (.coreInit a b) := by
  simp [OpcodeByte.Statement, encode, opcodeOf, cmdWord_op]

theorem OpcodeByte.checkCoreId (a b : Word) : OpcodeByte.Statement (.checkCoreId a b) := by
  simp [OpcodeByte.Statement, encode, opcodeOf, cmdWord_op]

theorem OpcodeByte.coreDeinit (a b : Word) : OpcodeByte.Statement (.coreDeinit a b) := by
  simp [OpcodeByte.Statement, encode, opcodeOf, cmdWord_op]

theorem OpcodeByte.setLanesPower (a b : Word) : OpcodeByte.Statement (.setLanesPower a b) := by
  simp [OpcodeByte.Statement, encode, opcodeOf, cmdWord_op]

theorem OpcodeByte.getLanes (a b : Word) : OpcodeByte.Statement (.getLanes a b) := by
  simp [OpcodeByte.Statement, encode, opcodeOf, cmdWord_op]

theorem OpcodeByte.setLanes (a b : Word) : OpcodeByte.Statement (.setLanes a b) := by
  simp [OpcodeByte.Statement, encode, opcodeOf, cmdWord_op]

theorem OpcodeByte.setRate (a b : Word) : OpcodeByte.Statement (.setRate a b) := by
  simp [OpcodeByte.Statement, encode, opcodeOf, cmdWord_op]

theorem OpcodeByte.getRate (a b : Word) : OpcodeByte.Statement (.getRate a b) := by
  simp [OpcodeByte.Statement, encode, opcodeOf, cmdWord_op]

theorem OpcodeByte.waitBusy (a b : Word) : OpcodeByte.Statement (.waitBusy a b) := by
  simp [OpcodeByte.Statement, encode, opcodeOf, cmdWord_op]

theorem OpcodeByte.setPreEmphasis (a b : Word) : OpcodeByte.Statement (.setPreEmphasis a b) := by
  simp [OpcodeByte.Statement, encode, opcodeOf, cmdWord_op]

theorem OpcodeByte.setVswing (a b : Word) : OpcodeByte.Statement (.setVswing a b) := by
  simp [OpcodeByte.Statement, encode, opcodeOf, cmdWord_op]

theorem OpcodeByte.setPattern (a b : Word) : OpcodeByte.Statement (.setPattern a b) := by
  simp [OpcodeByte.Statement, encode, opcodeOf, cmdWord_op]

theorem OpcodeByte.enableXmit (a b : Word) : OpcodeByte.Statement (.enableXmit a b) := by
  simp [OpcodeByte.Statement, encode, opcodeOf, cmdWord_op]

theorem OpcodeByte.rateToBw (a b : Word) : OpcodeByte.Statement (.rateToBw a b) := by
  simp [OpcodeByte.Statement, encode, opcodeOf, cmdWord_op]

theorem OpcodeByte.bwToRate (a b : Word) : OpcodeByte.Statement (.bwToRate a b) := by
  simp [OpcodeByte.Statement, encode, opcodeOf, cmdWord_op]

end Sys2Proof.Laws
end

