-- ==== Sys2Proof/Laws/Specs.lean ====
section
/-! SUPPORT. Spec lemmas: what each shared micro-sequence can do, said once. `RunKept` is what no micro-sequence
but the identity capture and the busy poll's deadline changes. -/

namespace Sys2Proof.Machine

/-- The handle, the host's queue, the return stack, the captured identity and the deadline are kept, and time does
not go back. -/
structure RunKept (s t : State) : Prop where
  hk : HandleKept s t
  now : s.now ≤ t.now
  ck : CaptureKept s t
  dl : t.deadline = s.deadline

theorem RunKept.refl (s : State) : RunKept s s := ⟨by simp [HandleKept], le_refl _, by simp [CaptureKept], rfl⟩

theorem RunKept.trans {s t u : State} (h : RunKept s t) (h' : RunKept t u) : RunKept s u := by
  obtain ⟨⟨a1, a2, a3, a4, a5⟩, b, ⟨c1, c2⟩, d⟩ := h
  obtain ⟨⟨e1, e2, e3, e4, e5⟩, f, ⟨g1, g2⟩, i⟩ := h'
  exact ⟨⟨e1.trans a1, e2.trans a2, e3.trans a3, e4.trans a4, e5.trans a5⟩, b.trans f,
    ⟨g1.trans c1, g2.trans c2⟩, i.trans d⟩

theorem RunKept.cfg {s t : State} (h : RunKept s t) : t.cfg = s.cfg := h.hk.2.2.1

section micro
variable (s : State)

theorem State.rmw_runKept (r : CoreReg) (f : Word → Word) : RunKept s (s.rmw r f) :=
  ⟨by simp [HandleKept], s.le_rmw_now r f, by simp [CaptureKept], by simp⟩
theorem State.rmwT_runKept (r : CoreReg) (f : Word → Word) : RunKept s (s.rmwT r f) :=
  ⟨by simp [HandleKept], s.le_rmwT_now r f, by simp [CaptureKept], by simp⟩
theorem State.memWrite_runKept (r : CoreReg) (v : Word) : RunKept s (s.memWrite r v) :=
  ⟨by simp [HandleKept], s.le_memWrite_now r v, by simp [CaptureKept], by simp⟩
theorem State.readT_runKept (r : CoreReg) : RunKept s (s.readT r) :=
  ⟨by simp [HandleKept], s.le_readT_now r, by simp [CaptureKept], by simp⟩
theorem State.logEvent_runKept (id : LogId) : RunKept s (s.logEvent id) :=
  ⟨by simp [HandleKept], s.le_logEvent_now id, by simp [CaptureKept], by simp⟩
theorem State.callSecure_runKept : RunKept s (s.callSecure) :=
  ⟨by simp [HandleKept], s.le_callSecure_now, by simp [CaptureKept], by simp⟩
theorem State.wait_runKept (d : Nat) : RunKept s (s.wait d) :=
  ⟨by simp [HandleKept], s.le_wait_now d, by simp [CaptureKept], by simp⟩
theorem State.phycrWrite_runKept (v : Word) : RunKept s (s.phycrWrite v) :=
  ⟨by simp [HandleKept], s.le_phycrWrite_now v, by simp [CaptureKept], by simp⟩
theorem State.ret_runKept (st : Status) (v : Word) : RunKept s (s.ret st v) :=
  ⟨by simp [HandleKept], s.le_ret_now st v, by simp [CaptureKept], by simp⟩
theorem State.raiseError_runKept (id : LogId) (st : Status) (v : Word) : RunKept s (s.raiseError id st v) :=
  ⟨by simp [HandleKept], (s.le_logEvent_now id).trans (State.le_ret_now _ _ _), by simp [CaptureKept], by simp⟩
theorem State.accept_runKept (op : Op) (a b : Word) : RunKept s (s.accept op a b) :=
  ⟨by simp [HandleKept], by simp, by simp [CaptureKept], by simp⟩
theorem State.withM_runKept (v : Word) : RunKept s (s.withM v) :=
  ⟨by simp [HandleKept], by simp, by simp [CaptureKept], by simp⟩
theorem State.withT_runKept (v : Word) : RunKept s (s.withT v) :=
  ⟨by simp [HandleKept], by simp, by simp [CaptureKept], by simp⟩
theorem State.withB_runKept (v : Word) : RunKept s (s.withB v) :=
  ⟨by simp [HandleKept], by simp, by simp [CaptureKept], by simp⟩
theorem State.withPc_runKept (p : Pc) : RunKept s (s.withPc p) :=
  ⟨by simp [HandleKept], by simp, by simp [CaptureKept], by simp⟩
theorem State.withNow_runKept (n : Nat) (h : s.now ≤ n) : RunKept s (s.withNow n) :=
  ⟨by simp [HandleKept], by simpa using h, by simp [CaptureKept], by simp⟩

end micro

/-- A frame that spares SRST_CTRL keeps what is held in reset. -/
theorem FileKept.held_eq_zero {s t : State} {l : List CoreReg} (hc : t.cfg = s.cfg) (h : FileKept s t l)
    (hl : CoreReg.srstCtrl ∉ l) (h0 : s.held = 0#32) : t.held = 0#32 := by
  have e : t.core.srstCtrl = s.core.srstCtrl := (h.1 .srstCtrl hl).eq_of_wholeRw rfl
  rw [State.held, hc, e]; exact h0

/-! ### Nested calls -/

/-- A nested call of a body that keeps the run: the caller's operands and pc come back (R23). -/
theorem State.callOp_spec (s : State) (op : Op) (a b : Word) (body : State → State)
    (h : RunKept (s.pushFrame op a b) (body (s.pushFrame op a b))) :
    RunKept s (s.callOp op a b body) ∧ (s.callOp op a b body).xA = s.xA ∧ (s.callOp op a b body).xB = s.xB
      ∧ (s.callOp op a b body).pc = s.pc.next := by
  have hst : (body (s.pushFrame op a b)).retStack = ⟨s.pc, s.xA, s.xB⟩ :: s.retStack := by
    rw [h.hk.2.2.2.2]; rfl
  refine ⟨⟨⟨?_, ?_, ?_, ?_, State.callOp_retStack _ _ _ _ _ hst⟩, ?_, ⟨?_, ?_⟩, ?_⟩,
    State.callOp_xA _ _ _ _ _ hst, State.callOp_xB _ _ _ _ _ hst, State.callOp_pc _ _ _ _ _ hst⟩
  · rw [State.callOp_attached]; exact h.hk.1
  · rw [State.callOp_base]; exact h.hk.2.1
  · rw [State.callOp_cfg]; exact h.hk.2.2.1
  · rw [State.callOp_host]; exact h.hk.2.2.2.1
  · rw [State.callOp_now]; exact h.now
  · rw [State.callOp_verstr]; exact h.ck.1
  · rw [State.callOp_version]; exact h.ck.2
  · rw [State.callOp_deadline]; exact h.dl

/-! ### The reset sequence -/

/-- SOFT_RESET's micro-sequence, whatever HW does: its four accesses and its wait (R170). -/
theorem State.softResetSeq_spec (s0 : State) :
    let m := s0.xA &&& s0.cfg.map.srstValid
    let v := s0.core.srstCtrl
    ∃ t0 t1, s0.softResetSeq.trace = s0.trace ++ [readEv s0 .srstCtrl v, writeEv s0 .srstCtrl (v ||| m),
          .wait t0 t1, readEv s0 .srstCtrl (v ||| m), writeEv s0 .srstCtrl ((v ||| m) &&& ~~~m)]
      ∧ s0.now ≤ t0 ∧ t0 + s0.cfg.tSrstHoldMin ≤ t1 ∧ t1 ≤ s0.softResetSeq.now
      ∧ s0.softResetSeq.core.srstCtrl = (v ||| m) &&& ~~~m ∧ RunKept s0 s0.softResetSeq
      ∧ s0.softResetSeq.auxReadyAt = s0.auxReadyAt := by
  intro m v
  let s1 := s0.srstAssert
  let s2 := s1.wait s0.cfg.tSrstHoldMin
  let s3 := s2.srstDeassert
  have hs : s0.softResetSeq = s3 := by simp [State.softResetSeq, s3, s2, s1, State.srstAssert]
  have e1 : s1.xM = m ∧ s1.core.srstCtrl = v ||| m ∧ s1.cfg = s0.cfg := by simp [s1, State.srstAssert, m, v]
  have e2 : s2.xM = m ∧ s2.core.srstCtrl = v ||| m ∧ s2.cfg = s0.cfg := by simp [s2, e1]
  have e3 : s3.core.srstCtrl = (v ||| m) &&& ~~~m ∧ s3.xT = v ||| m := by simp [s3, State.srstDeassert, e2,
      State.coreWord, CoreFile.get]
  have b1 : RunKept s0 ((s0.withM m).rmw .srstCtrl (fun t => t ||| m)) := (State.withM_runKept s0 m).trans
      (State.rmw_runKept (s0.withM m) _ _)
  replace b1 : RunKept s0 s1 := b1
  have b2 : RunKept s1 s2 := State.wait_runKept _ _
  have b3 : RunKept s2 s3 := State.rmw_runKept s2 .srstCtrl (fun t => t &&& ~~~s2.xM)
  rw [hs]
  refine ⟨s1.envMove.now, s2.now, ?_, ?_, ?_, ?_, ?_, b1.trans (b2.trans b3), by simp [s3,s2,s1,
      State.srstDeassert, State.srstAssert]⟩
  · have t1 : s1.trace = s0.trace ++ [readEv s0 .srstCtrl v, writeEv s0 .srstCtrl (v ||| m)] := by
      simp [s1, State.srstAssert, State.coreWord, CoreFile.get, m, v, readEv, writeEv]
    have t2 : s2.trace = s1.trace ++ [.wait s1.envMove.now s2.now] := by simp only [s2, State.wait_trace,
        State.wait_now]
    have t3 : s3.trace = s2.trace ++ [readEv s0 .srstCtrl (v ||| m),
        writeEv s0 .srstCtrl ((v ||| m) &&& ~~~m)] := by
      simp [s3, State.srstDeassert, e2, State.coreWord, CoreFile.get, readEv, writeEv]
    rw [t3, t2, t1]; simp
  · exact (b1.now).trans (State.le_envMove_now s1)
  · have : s2.now = s1.envMove.now + s0.cfg.tSrstHoldMin + s1.nextEnv.extra := State.wait_now s1 _
    omega
  · exact b3.now
  · simp [e3]

/-! ### Lane power -/

/-- The power-down update respects agreement on a mask (R11). -/
theorem lanesPowered_congr (c : Cfg) (a : Word) : ∀ x y m : Word,
    x &&& m = y &&& m → lanesPowered c a x &&& m = lanesPowered c a y &&& m := by
  intro x y m h
  unfold lanesPowered
  split
  · exact putField_congr _ _ _ _ _ h
  · rw [and_mask_eq_iff] at h ⊢
    intro i hi hm
    have := h i hi hm
    split <;> simp [this, hi, -BitVec.getLsbD_eq_getElem]

/-- SET_LANES_POWER's micro-sequence (R190, R191). -/
theorem State.setLanesPowerSeq_spec (s : State) : ∃ p, s.setLanesPowerSeq.trace = s.trace ++
    ([readEv s .phyifCtrl p, writeEv s .phyifCtrl (lanesPowered s.cfg s.xA p)] ++
    (if s.xA ≠ 0#32 then [.memWrite .phycr 4#32 0x211#32, .memWrite .phycr 4#32 0#32] else []))
   ∧ RunKept s s.setLanesPowerSeq ∧ s.setLanesPowerSeq.auxReadyAt = s.auxReadyAt ∧ s.setLanesPowerSeq.xA = s.xA
       ∧ s.setLanesPowerSeq.xB = s.xB
   ∧ (s.held = 0#32 → RegsKept s s.setLanesPowerSeq [.phyifCtrl] ∧ s.setLanesPowerSeq.phycr4 =
       (if s.xA ≠ 0#32 then 0#32 else s.phycr4)
       ∧ outsideBusy s s.setLanesPowerSeq.core.phyifCtrl = outsideBusy s
           (lanesPowered s.cfg s.xA s.core.phyifCtrl) ∧ s.setLanesPowerSeq.held = 0#32) := by
  let s1 := s.readT .phyifCtrl
  let s2 := if s1.cfg.quirk.combinedPwrdown then s1 else s1.withM s1.cfg.map.pwrdownLane.allMask
  let s3 := s2.withT (lanesPowered s2.cfg s2.xA s2.xT)
  let s4 := s3.memWrite .phyifCtrl s3.xT
  have hseq : s.setLanesPowerSeq = if Sys2Proof.Machine.isTrue s4.xA then
      (s4.phycrWrite 0x211#32).phycrWrite 0#32 else s4 := rfl
  have b1 : RunKept s s1 := State.readT_runKept _ _
  have b2 : RunKept s1 s2 := by simp only [s2]; split; exact RunKept.refl _; exact State.withM_runKept _ _
  have b3 : RunKept s2 s3 := State.withT_runKept _ _
  have b4 : RunKept s3 s4 := State.memWrite_runKept _ _ _
  have B := b1.trans (b2.trans (b3.trans b4))
  have c2 : s2.cfg = s.cfg ∧ s2.xA = s.xA ∧ s2.xB = s.xB ∧ s2.xT = s.envMove.coreWord .phyifCtrl ∧ s2.core
      = s.envMove.core ∧ s2.phycr4 = s.envMove.phycr4 ∧ s2.trace = s1.trace ∧ s2.auxReadyAt = s.auxReadyAt := by
    simp only [s2]; split <;> simp [s1]
  have c4 : s4.xA = s.xA ∧ s4.xB = s.xB ∧ s4.auxReadyAt = s.auxReadyAt := by simp [s4, s3, c2]
  have ht : s4.trace = s.trace ++ [readEv s .phyifCtrl (s.envMove.coreWord .phyifCtrl),
      writeEv s .phyifCtrl (lanesPowered s.cfg s.xA (s.envMove.coreWord .phyifCtrl))] := by
    simp [s4, s3, c2, s1, readEv, writeEv]
  have hk : s.held = 0#32 → FileKept s s4 [.phyifCtrl] ∧ outsideBusy s s4.core.phyifCtrl = outsideBusy s
      (lanesPowered s.cfg s.xA s.core.phyifCtrl) ∧ s4.held = 0#32 := by
    intro h0
    have k1 : FileKept s s1 [.phyifCtrl] := State.readT_fileKept _ _ _ h0
    have hc13 : ∀ q, s3.coreWord q = s1.coreWord q := by
      intro q; simp only [s3, s2]; split <;> cases q <;> rfl
    have hp13 : s3.phycr4 = s1.phycr4 := by simp [s3, c2, s1]
    have k3 : FileKept s s3 [.phyifCtrl] := by
      refine ⟨fun q hq => ?_, hp13.trans k1.2⟩
      have := k1.1 q hq
      unfold RegKept at this ⊢
      rw [hc13]; exact this
    have c3 : s3.cfg = s.cfg := by simp [s3, c2]
    have hh3 := FileKept.held_eq_zero c3 k3 (by simp) h0
    have k4 := k3.trans c3 (State.memWrite_fileKept s3 [.phyifCtrl] .phyifCtrl s3.xT hh3 (by simp))
    have c4' : s4.cfg = s.cfg := B.hk.2.2.1
    refine ⟨k4, ?_, FileKept.held_eq_zero c4' k4 (by simp) h0⟩
    have sb := State.memWrite_storedBits s3 .phyifCtrl s3.xT (by simp [stored])
    have sb' : s4.core.phyifCtrl &&& ~~~s.cfg.map.busy.allMask = s3.xT &&& ~~~s.cfg.map.busy.allMask := by
      rw [c3] at sb
      simp only [storedBits, RegMap.deafMask, RegMap.roHwMask, RegMap.w1cMask, BitVec.or_zero] at sb
      exact sb
    unfold outsideBusy
    rw [sb']
    simp only [s3, State.withT_xT, c2]
    exact lanesPowered_congr _ _ _ _ _ (State.envMove_phyif s h0)
  by_cases ha : s.xA = 0#32
  · have hq : s.setLanesPowerSeq = s4 := by rw [hseq]; simp [Sys2Proof.Machine.isTrue, c4, ha]
    rw [hq]
    refine ⟨s.envMove.coreWord .phyifCtrl, by rw [ht, ha]; simp, B, c4.2.2, c4.1, c4.2.1, ?_⟩
    intro h0
    obtain ⟨k, o, h4⟩ := hk h0
    exact ⟨k.1, by rw [ha]; simpa using k.2, o, h4⟩
  · have hq : s.setLanesPowerSeq = (s4.phycrWrite 0x211#32).phycrWrite 0#32
        := by rw [hseq]; simp [Sys2Proof.Machine.isTrue, c4, ha]
    rw [hq]
    have htr : ((s4.phycrWrite 0x211#32).phycrWrite 0#32).trace = s4.trace
        ++ [.memWrite .phycr 4#32 0x211#32, .memWrite .phycr 4#32 0#32] := by
      rw [State.phycrWrite_trace, State.phycrWrite_trace, List.append_assoc]; rfl
    refine ⟨s.envMove.coreWord .phyifCtrl, by rw [htr, ht]; simp [ha],
        B.trans ((State.phycrWrite_runKept _ _).trans (State.phycrWrite_runKept _ _)),
        by simp [c4], by simp [c4], by simp [c4], ?_⟩
    intro h0
    obtain ⟨k, o, h4⟩ := hk h0
    have g : ∀ x : State, x.held = 0#32 → ∀ v, RegsKept x (x.phycrWrite v) [.phyifCtrl] := fun x hx v q _
        => State.phycrWrite_regKept x v hx q
    have h5 : (s4.phycrWrite 0x211#32).held = 0#32 := by rw [State.phycrWrite_held]; exact h4
    have c4' : s4.cfg = s.cfg := B.hk.2.2.1
    refine ⟨fun q hq => ((k.1 q hq).trans c4' (g s4 h4 _ q hq)).trans (by rw [State.phycrWrite_cfg]; exact c4')
        (g _ h5 _ q hq), by simp [ha], ?_, by rw [State.phycrWrite_held]; exact h5⟩
    rw [← o]
    unfold outsideBusy
    have e1 := State.envMove_phyif s4 h4
    have e2 := State.envMove_phyif (s4.phycrWrite 0x211#32) h5
    simp only [State.phycrWrite_cfg, c4', State.phycrWrite_core] at e1 e2 ⊢
    exact e2.trans e1

/-! ### One read-modify-write, and the equalization setters -/

/-- A command that is one read-modify-write of `r` and its `ret` (R80). -/
theorem State.rmwRet_spec (s : State) (r : CoreReg) (f : Word → Word) (h : r ≠ .auxCtrl) (hs : r ≠ .srstCtrl):
    let t := (s.rmw r f).ret .ok 0#32
    t.trace = s.trace ++ [readEv s r (s.envMove.coreWord r), writeEv s r (f (s.envMove.coreWord r)), .ret .ok 0#32]
    ∧ t.status = .ok ∧ t.xR = 0#32 ∧ t.xT = s.envMove.coreWord r ∧ t.xM = s.xM ∧ t.xA = s.xA ∧ t.xB = s.xB
    ∧ t.pc = .idle ∧ RunKept s t ∧ t.auxReadyAt = s.auxReadyAt
    ∧ (s.held = 0#32 → FileKept s t [r] ∧ t.held = 0#32) := by
  refine ⟨by simp [readEv, writeEv], by simp, by simp, by simp, by simp, by simp, by simp, by simp,
      (State.rmw_runKept s r f).trans (State.ret_runKept _ _ _), by simp [h], ?_⟩
  intro h0
  have h1 : (s.rmw r f).held = 0#32 := by rw [State.rmw_held _ _ _ hs]; exact h0
  exact ⟨State.rmwRet_fileKept s r f .ok 0#32 h0 hs, by simpa using h1⟩

/-- An equalization setter with a valid lane (R199, R200). -/
theorem State.setLevel_spec (s : State) (fields : PerLane Field) (ha : s.xA.toNat ≤ 3) :
   let lvl : Word := if s.xB.toNat ≤ 3 then s.xB else 3#32
   let t := s.setLevel fields
   ∃ v, t.trace = s.trace ++ ((if s.xB.toNat ≤ 3 then [] else [.log .levelClamped])
            ++ [readEv s .phyTxEq v, writeEv s .phyTxEq (putField v (fields.get s.xA.toNat) lvl), .ret .ok 0#32])
    ∧ t.status = .ok ∧ t.xR = 0#32 ∧ t.xT = v ∧ t.xM = s.xM ∧ t.xA = s.xA ∧ t.xB = lvl ∧ t.pc = .idle
    ∧ RunKept s t ∧ t.auxReadyAt = s.auxReadyAt
    ∧ (s.held = 0#32 → FileKept s t [.phyTxEq] ∧ t.core.phyTxEq = putField s.core.phyTxEq
        (fields.get s.xA.toNat) lvl) := by
  intro lvl
  have hab : aboveThree s.xA = false := by simp [aboveThree]; omega
  by_cases hb : s.xB.toNat ≤ 3
  · have hlvl : lvl = s.xB := by simp [lvl, hb]
    have hbb : aboveThree s.xB = false := by simp [aboveThree]; omega
    have e : s.setLevel fields = (s.rmw .phyTxEq (fun t => putField t (fields.get s.xA.toNat) lvl)).ret .ok 0#32
        := by
      simp [State.setLevel, hab, hbb, hlvl]
    rw [e]
    obtain ⟨h1,h2,h3,h4,h5,h6,h7,h8,h9,h10,h11⟩ := State.rmwRet_spec s .phyTxEq (fun t => putField t
        (fields.get s.xA.toNat) lvl) (by decide) (by decide)
    refine ⟨_, ?_, h2, h3, h4, h5, h6, h7.trans hlvl.symm, h8, h9, h10, fun h0 => ⟨(h11 h0).1, ?_⟩⟩
    · simpa [hb] using h1
    · exact State.rmwRet_whole s .phyTxEq (fun t => putField t (fields.get s.xA.toNat) lvl) .ok 0#32 h0
          (by simp [stored]) rfl (by simp)
  · have hlvl : lvl = 3#32 := by simp [lvl, hb]
    have hbb : aboveThree s.xB = true := by simp [aboveThree]; omega
    have hcl : clamp3 s.xB = 3#32 := by simp [clamp3]; omega
    have e : s.setLevel fields = (((s.logEvent .levelClamped).withB 3#32).rmw .phyTxEq (fun t => putField t
        (fields.get s.xA.toNat) lvl)).ret .ok 0#32 := by
      simp [State.setLevel, hab, hbb, hlvl, hcl]
    rw [e]
    obtain ⟨h1,h2,h3,h4,h5,h6,h7,h8,h9,h10,h11⟩ := State.rmwRet_spec
        ((s.logEvent .levelClamped).withB 3#32) .phyTxEq (fun t => putField t (fields.get s.xA.toNat) lvl)
        (by decide) (by decide)
    have bs : RunKept s ((s.logEvent .levelClamped).withB 3#32) := (State.logEvent_runKept _ _).trans
        (State.withB_runKept _ _)
    refine ⟨_, ?_, h2, h3, h4, by simp, by simp, h7.trans hlvl.symm, h8, bs.trans h9,
        by simp, fun h0 => ?_⟩
    · simp [hb, readEv, writeEv]
    · have h0' : ((s.logEvent .levelClamped).withB 3#32).held = 0#32 := by
        have : (s.logEvent .levelClamped).held = 0#32 := by rw [State.logEvent_held]; exact h0
        exact this
      have hk : FileKept s ((s.logEvent .levelClamped).withB 3#32) [.phyTxEq] :=
          (State.logEvent_fileKept s [.phyTxEq] .levelClamped h0)
      refine ⟨hk.trans (by simp) (h11 h0').1, ?_⟩
      have h12 := State.rmwRet_whole ((s.logEvent .levelClamped).withB 3#32) .phyTxEq (fun t => putField t
          (fields.get s.xA.toNat) lvl) .ok 0#32 h0' (by simp [stored]) rfl (by simp)
      have h13 := State.envMove_whole s .phyTxEq h0 rfl
      have h14 : ((s.logEvent .levelClamped).withB 3#32).coreWord .phyTxEq = s.envMove.coreWord .phyTxEq
          := State.logEvent_coreWord s .levelClamped .phyTxEq
      rw [h14, h13] at h12
      exact h12

/-- An equalization setter with an invalid lane (R199, R200). -/
theorem State.setLevel_invalid (s : State) (fields : PerLane Field) (ha : 3 < s.xA.toNat) : s.setLevel fields =
    (s.logEvent .invalidLaneIndex).ret .ok 0#32 := by
  have hab : aboveThree s.xA = true := by simp [aboveThree]; omega
  simp [State.setLevel, hab]

/-! ### The busy poll -/

/-- What the busy poll from `s` to `t` did: the words read before the last, the last one, the events (R197). -/
structure PollRes (s t : State) (vs : List Word) (last : Word) (new : List Event) : Prop where
  tr : t.trace = s.trace ++ new
  w : writesOf new = []
  r : readsOf new = (vs ++ [last]).map (fun v => (Space.core, s.cfg.map.offsetOf .phyifCtrl, v))
  pv : ∀ v ∈ vs, v &&& s.xM ≠ 0#32
  res : (t.status = .ok ∧ t.xR = 0#32 ∧ last &&& s.xM = 0#32) ∨ (t.status = .busy ∧ t.xR = last &&& s.xM
      ∧ last &&& s.xM ≠ 0#32 ∧ s.deadline ≤ t.now)
  xM : t.xM = s.xM
  b : RunKept s t
  aux : t.auxReadyAt = s.auxReadyAt
  xA : t.xA = s.xA
  xB : t.xB = s.xB
  pc : t.pc = .idle
  fk : s.held = 0#32 → FileKept s t []
  len : s.now + vs.length * s.cfg.tPoll < s.deadline ∨ vs = []

/-- The busy poll always ends, as R197 says. -/
theorem State.pollBusy_spec (top : Pc) : ∀ n (s : State), 0 < n → ∃ vs last new,
    PollRes s (State.pollBusy top n s) vs last new := by
  intro n
  induction n with
  | zero => intro s h; omega
  | succ n ih =>
    intro s _
    rw [State.pollBusy]
    simp only
    let s1 := s.readT .phyifCtrl
    let v := s.envMove.coreWord .phyifCtrl
    have c1 : s1.cfg = s.cfg := by simp [s1]
    have hT : s1.xT = v := by simp [s1, v]
    have hM : s1.xM = s.xM := by simp [s1]
    have b1 : RunKept s s1 := State.readT_runKept _ _
    have f1 : s.held = 0#32 → FileKept s s1 [] := fun h0 => State.readT_fileKept _ _ _ h0
    have h1 : s.held = 0#32 → s1.held = 0#32 := fun h0 => FileKept.held_eq_zero c1 (f1 h0) (by simp) h0
    have t1 : s1.trace = s.trace ++ [readEv s .phyifCtrl v] := by simp [s1, readEv, v]
    let s2 := s1.wait s1.cfg.tPoll
    change ∃ vs last new, PollRes s (if s1.xT &&& s1.xM = 0#32 then s1.ret .ok 0#32
      else if s2.deadline ≤ s2.now then s2.pollTimeout else State.pollBusy top n (s2.withPc top)) vs last new
    rw [hT, hM]
    by_cases hz : v &&& s.xM = 0#32
    · rw [if_pos hz]
      refine ⟨[], v, [readEv s .phyifCtrl v, .ret .ok 0#32], ⟨by rw [State.ret_trace, t1]; simp, rfl, rfl,
          by simp, Or.inl ⟨by simp, by simp, hz⟩, by simp [hM], b1.trans (State.ret_runKept _ _ _), by simp [s1],
          by simp [s1], by simp [s1], by simp, fun h0 => (f1 h0).trans c1 (State.ret_fileKept _ _ _ _ (h1 h0)),
          Or.inr rfl⟩⟩
    · rw [if_neg hz]
      have c2 : s2.cfg = s.cfg := by simp [s2, c1]
      have b2 : RunKept s s2 := b1.trans (State.wait_runKept _ _)
      have f2 : s.held = 0#32 → FileKept s s2 [] := fun h0 => (f1 h0).trans c1 (State.wait_fileKept _ _ _ (h1 h0))
      have h2 : s.held = 0#32 → s2.held = 0#32 := fun h0 => FileKept.held_eq_zero c2 (f2 h0) (by simp) h0
      have t2 : s2.trace = s.trace ++ [readEv s .phyifCtrl v, .wait s1.envMove.now s2.now] := by
        simp only [s2, State.wait_trace, State.wait_now, t1, c1, List.append_assoc]; rfl
      have d2 : s2.deadline = s.deadline := b2.dl
      have T2 : s2.xT = v := by simp [s2, hT]
      have M2 : s2.xM = s.xM := by simp [s2, hM]
      have n2 : s.now + s.cfg.tPoll ≤ s2.now := by
        have := State.add_le_wait_now s1 s1.cfg.tPoll
        have := b1.now
        have e : s1.cfg.tPoll = s.cfg.tPoll := by rw [c1]
        have e2 : s2.now = (s1.wait s1.cfg.tPoll).now := rfl
        omega
      have tmo : ∀ x : State, x.trace = s2.trace → x.xT = v → x.xM = s.xM → RunKept s x → (s.held = 0#32
          → FileKept s x [] ∧ x.held = 0#32) → x.xA = s.xA → x.xB = s.xB → x.auxReadyAt = s.auxReadyAt
          → s.deadline ≤ x.now → PollRes s x.pollTimeout [] v [readEv s .phyifCtrl v,
          .wait s1.envMove.now s2.now, .log .busy, .ret .busy (v &&& s.xM)] := by
        intro x xt xT xM xb xf xA xB xa xn
        have e : x.pollTimeout = x.raiseError .busy .busy (v &&& s.xM) := by simp [State.pollTimeout, xT, xM]
        rw [e]
        have hn := (State.raiseError_runKept x .busy .busy (v &&& s.xM)).now
        exact ⟨by rw [State.raiseError_trace, xt, t2]; simp, rfl, rfl, by simp, Or.inr ⟨by simp, by simp, hz,
            by omega⟩, by simp [xM], xb.trans (State.raiseError_runKept _ _ _ _), by simp [xa], by simp [xA],
            by simp [xB], by simp, fun h0 => (xf h0).1.trans xb.hk.2.2.1 (State.raiseError_fileKept _ _ _ _ _
            (xf h0).2), Or.inr rfl⟩
      by_cases hd : s2.deadline ≤ s2.now
      · rw [if_pos hd]
        exact ⟨[], v, _, tmo s2 rfl T2 M2 b2 (fun h0 => ⟨f2 h0, h2 h0⟩) (by simp [s2, s1]) (by simp [s2,
            s1]) (by simp [s2,s1]) (by rw [← d2]; exact hd)⟩
      · rw [if_neg hd]
        by_cases hn : n = 0
        · subst hn
          rw [State.pollBusy]
          let x := (s2.withPc top).withNow (max (s2.withPc top).now (s2.withPc top).deadline)
          refine ⟨[], v, _, tmo x rfl (by simp [x, T2]) (by simp [x, M2]) ?_ ?_ (by simp [x, s2,
              s1]) (by simp [x, s2, s1]) (by simp [x, s2,s1]) ?_⟩
          · exact (b2.trans (State.withPc_runKept _ _)).trans (State.withNow_runKept _ _ (Nat.le_max_left _ _))
          · intro h0; exact ⟨f2 h0, h2 h0⟩
          · simp only [x, State.withNow_now]
            have : (s2.withPc top).deadline = s.deadline := d2
            rw [this]; exact Nat.le_max_right _ _
        · obtain ⟨vs, last, new, P⟩ := ih (s2.withPc top) (by omega)
          have bp : RunKept s (s2.withPc top) := b2.trans (State.withPc_runKept _ _)
          have cp : (s2.withPc top).cfg = s.cfg := c2
          have Mp : (s2.withPc top).xM = s.xM := M2
          have dp : (s2.withPc top).deadline = s.deadline := d2
          have tp : (s2.withPc top).trace = s2.trace := rfl
          refine ⟨v :: vs, last, [readEv s .phyifCtrl v, .wait s1.envMove.now s2.now] ++ new, ⟨?_, ?_, ?_, ?_,
              ?_, P.xM.trans Mp, bp.trans P.b, ?_, ?_, ?_, P.pc, ?_, ?_⟩⟩
          · rw [P.tr, tp, t2, List.append_assoc]
          · have := P.w; simpa [writesOf, readEv] using this
          · have := P.r
            simp only [readsOf, List.filterMap_append] at this ⊢
            rw [this, cp]; rfl
          · intro w hw
            rcases List.mem_cons.mp hw with rfl | hw
            · exact hz
            · have := P.pv w hw; rw [Mp] at this; exact this
          · have := P.res; rw [Mp, dp] at this; exact this
          · rw [P.aux]; simp [s2, s1]
          · rw [P.xA]; simp [s2, s1]
          · rw [P.xB]; simp [s2, s1]
          · intro h0
            have k : FileKept s (s2.withPc top) [] := f2 h0
            exact k.trans cp (P.fk (h2 h0))
          · left
            have hlt2 : (s2.withPc top).now < (s2.withPc top).deadline := by
              have : s2.now < s2.deadline := by omega
              exact this
            have hnow : (s2.withPc top).now = s2.now := rfl
            rcases P.len with h | h
            · rw [cp, dp, hnow] at h
              simp only [List.length_cons]
              rw [Nat.add_mul]; omega
            · subst h
              rw [dp, hnow] at hlt2
              simp; omega

end Sys2Proof.Machine
end

