-- ==== Sys2Proof/Tests/Slice0.lean ====
section
/-! SUPPORT. Tests. The expected values are those of spec/95_test_vectors.md (named S, V or P) or of the rule a
theorem names; the words are written out from R100 and R102. The witnesses show a concrete state and operands
that meet the hypotheses of a statement together. -/

namespace Sys2Proof.Tests

open Sys2Proof Sys2Proof.Machine

set_option Elab.async false -- one theorem after another: each in a thread of its own outgrows the memory limit

/-! ### Helpers -/

/-- A gap in which nothing happens. -/
def quiet : EnvStep := ⟨0, 0, []⟩

/-- All stored words zero. -/
def zeroFile : CoreFile := State.reset.core

/-- An attached, idle block with configuration `c` and registers `f`, its next gaps quiet. -/
def rig (c : Cfg) (f : CoreFile) : State :=
  { State.reset with attached := true, cfg := c, core := f, envScript := List.replicate 24 quiet }

/-- The block with the reference configuration. -/
def rigRef (f : CoreFile) : State := rig Cfg.ref f

/-- The block with PHYIF_CTRL as given. -/
def phy (v : Word) : State := rigRef { zeroFile with phyifCtrl := v }

/-- The block with PHY_TX_EQ as given. -/
def txeq (v : Word) : State := rigRef { zeroFile with phyTxEq := v }

/-- The state after a command. -/
def after (i : Instr) (s : State) : State :=
  match exec i s with
  | .next t => t
  | _ => s

/-- The reference map's read event. -/
def rd (off v : Word) : Event := .memRead .core off v

/-- The reference map's write event. -/
def wr (off v : Word) : Event := .memWrite .core off v

/-- The two read-modify-write events. -/
def rw (off v w : Word) : List Event := [rd off v, wr off w]

/-! ### Decoding: a word of R100 and R102 for every row -/

theorem test_decode_regRead : decode 0x008000000140000003#72 = .ok (.regRead 0x80000001#32 0x40000003#32) := by decide +kernel
theorem test_decode_regWrite : decode 0x018000000140000003#72 = .ok (.regWrite 0x80000001#32 0x40000003#32) := by decide +kernel
theorem test_decode_intrEn : decode 0x108000000140000003#72 = .ok (.intrEn 0x80000001#32 0x40000003#32) := by decide +kernel
theorem test_decode_intrDis : decode 0x118000000140000003#72 = .ok (.intrDis 0x80000001#32 0x40000003#32) := by decide +kernel
theorem test_decode_globalIntrEn : decode 0x128000000140000003#72 = .ok (.globalIntrEn 0x80000001#32 0x40000003#32) := by decide +kernel
theorem test_decode_globalIntrDis : decode 0x138000000140000003#72 = .ok (.globalIntrDis 0x80000001#32 0x40000003#32) := by decide +kernel
theorem test_decode_globalIntrClear : decode 0x148000000140000003#72 = .ok (.globalIntrClear 0x80000001#32 0x40000003#32) := by decide +kernel
theorem test_decode_softReset : decode 0x208000000140000003#72 = .ok (.softReset 0x80000001#32 0x40000003#32) := by decide +kernel
theorem test_decode_softResetAll : decode 0x218000000140000003#72 = .ok (.softResetAll 0x80000001#32 0x40000003#32) := by decide +kernel
theorem test_decode_phySoftReset : decode 0x228000000140000003#72 = .ok (.phySoftReset 0x80000001#32 0x40000003#32) := by decide +kernel
theorem test_decode_typecAck : decode 0x238000000140000003#72 = .ok (.typecAck 0x80000001#32 0x40000003#32) := by decide +kernel
theorem test_decode_auxReset : decode 0x248000000140000003#72 = .ok (.auxReset 0x80000001#32 0x40000003#32) := by decide +kernel
theorem test_decode_coreInit : decode 0x258000000140000003#72 = .ok (.coreInit 0x80000001#32 0x40000003#32) := by decide +kernel
theorem test_decode_checkCoreId : decode 0x268000000140000003#72 = .ok (.checkCoreId 0x80000001#32 0x40000003#32) := by decide +kernel
theorem test_decode_coreDeinit : decode 0x278000000140000003#72 = .ok (.coreDeinit 0x80000001#32 0x40000003#32) := by decide +kernel
theorem test_decode_setLanesPower : decode 0x308000000140000003#72 = .ok (.setLanesPower 0x80000001#32 0x40000003#32) := by decide +kernel
theorem test_decode_getLanes : decode 0x318000000140000003#72 = .ok (.getLanes 0x80000001#32 0x40000003#32) := by decide +kernel
theorem test_decode_setLanes : decode 0x328000000140000003#72 = .ok (.setLanes 0x80000001#32 0x40000003#32) := by decide +kernel
theorem test_decode_setRate : decode 0x338000000140000003#72 = .ok (.setRate 0x80000001#32 0x40000003#32) := by decide +kernel
theorem test_decode_getRate : decode 0x348000000140000003#72 = .ok (.getRate 0x80000001#32 0x40000003#32) := by decide +kernel
theorem test_decode_waitBusy : decode 0x358000000140000003#72 = .ok (.waitBusy 0x80000001#32 0x40000003#32) := by decide +kernel
theorem test_decode_setPreEmphasis : decode 0x368000000140000003#72 = .ok (.setPreEmphasis 0x80000001#32 0x40000003#32) := by decide +kernel
theorem test_decode_setVswing : decode 0x378000000140000003#72 = .ok (.setVswing 0x80000001#32 0x40000003#32) := by decide +kernel
theorem test_decode_setPattern : decode 0x388000000140000003#72 = .ok (.setPattern 0x80000001#32 0x40000003#32) := by decide +kernel
theorem test_decode_enableXmit : decode 0x398000000140000003#72 = .ok (.enableXmit 0x80000001#32 0x40000003#32) := by decide +kernel
theorem test_decode_rateToBw : decode 0x408000000140000003#72 = .ok (.rateToBw 0x80000001#32 0x40000003#32) := by decide +kernel
theorem test_decode_bwToRate : decode 0x418000000140000003#72 = .ok (.bwToRate 0x80000001#32 0x40000003#32) := by decide +kernel

/-- V6: an op that R102 does not have. -/
theorem test_decode_unknown : decode 0x7F0000000000000000#72 = .error (.unknownOp 0x7F#8) := by decide +kernel

/-- R125: the byte between two families is no op, whatever the operands. -/
theorem test_decode_gap : decode 0x02000000D000000001#72 = .error (.unknownOp 0x02#8) := by decide +kernel

/-- V2: the encoder. -/
theorem test_encode : encode (.regWrite 0xD00#32 1#32) = 0x0100000D0000000001#72 := by decide +kernel

/-- V8: the table numbers the same bits. -/
theorem test_table_word : decodeTableWord 72 0x31DEADBEEF12345678 = some (.getLanes 0xDEADBEEF#32 0x12345678#32) := by
  decide +kernel

/-! ### Well-formedness: each condition of R117 refuses an ill-formed map -/

/-- R118: the reference map is well formed. -/
theorem test_wf_ref : RegMap.ref.wf = true := by decide +kernel

theorem test_wf_instr : (Instr.getLanes 0xDEADBEEF#32 1#32).wf = true := by decide +kernel

theorem test_wfFields_refuses_1 :
    RegMap.wfFields { RegMap.ref with tpsSel := ⟨30, 4⟩ } = false := by decide +kernel
theorem test_wfFields_refuses_2 :
    RegMap.wfFields { RegMap.ref with vswing := ⟨⟨2, 0⟩, ⟨8, 2⟩, ⟨14, 2⟩, ⟨20, 2⟩⟩ } = false := by decide +kernel
theorem test_wfOffsets_refuses_1 :
    RegMap.wfOffsets { RegMap.ref with offset := { Offsets.ref with ien := 0xD00#32 } } = false := by decide +kernel
theorem test_wfOffsets_refuses_2 :
    RegMap.wfOffsets { RegMap.ref with offset := { Offsets.ref with ien := 0xD06#32 } } = false := by decide +kernel
theorem test_wfPhyif_refuses_1 :
    RegMap.wfPhyif { RegMap.ref with width := 17 } = false := by decide +kernel
theorem test_wfPhyif_refuses_2 :
    RegMap.wfPhyif { RegMap.ref with lanes := ⟨5, 2⟩ } = false := by decide +kernel
theorem test_wfWidths_refuses_1 :
    RegMap.wfWidths { RegMap.ref with rate := ⟨4, 1⟩ } = false := by decide +kernel
theorem test_wfTxEq_refuses_1 :
    RegMap.wfTxEq { RegMap.ref with preemp := ⟨⟨1, 2⟩, ⟨6, 2⟩, ⟨12, 2⟩, ⟨18, 2⟩⟩ } = false := by decide +kernel
theorem test_wfIen_refuses_1 :
    RegMap.wfIen { RegMap.ref with ienHpd := 8 } = false := by decide +kernel
theorem test_wfHpd_refuses_1 :
    RegMap.wfHpd { RegMap.ref with hpdHotPlug := 0 } = false := by decide +kernel
theorem test_wfHpd_refuses_2 :
    RegMap.wfHpd { RegMap.ref with hpdIenIrq := 2 } = false := by decide +kernel
theorem test_wfTypec_refuses_1 :
    RegMap.wfTypec { RegMap.ref with typecDisableStatus := 0 } = false := by decide +kernel
theorem test_wfAux_refuses_1 :
    RegMap.wfAux { RegMap.ref with auxBlockEn := 4 } = false := by decide +kernel
theorem test_wfAux_refuses_2 :
    RegMap.wfAux { RegMap.ref with auxVodTuneCal := 4#32 } = false := by decide +kernel
theorem test_wfPwrdown_refuses_1 :
    RegMap.wfPwrdown { RegMap.ref with pwrdownCombDown := 0#32 } = false := by decide +kernel
theorem test_wfPwrdown_refuses_2 :
    RegMap.wfPwrdown { RegMap.ref with pwrdownCombDown := 16#32 } = false := by decide +kernel
theorem test_wfWrap_refuses_1 :
    RegMap.wfWrap { RegMap.ref with wrapIntBits := 0#32 } = false := by decide +kernel
theorem test_wfRates_refuses_1 :
    RegMap.wfRates { RegMap.ref with hbr3 := 4#32 } = false := by decide +kernel
theorem test_wfRates_refuses_2 :
    RegMap.wfRates { RegMap.ref with hbr := 0#32 } = false := by decide +kernel
theorem test_wfRates_refuses_3 :
    RegMap.wfRates { RegMap.ref with bwHbr := 6#32 } = false := by decide +kernel
theorem test_wfRates_refuses_4 :
    RegMap.wfRates { RegMap.ref with bwRbr := 0#32 } = false := by decide +kernel
theorem test_wfSentinel_refuses_1 :
    RegMap.wfSentinel { RegMap.ref with sentinel := 22#32 } = false := by decide +kernel

/-- The whole check refuses what one condition refuses. -/
theorem test_wf_refuses : RegMap.wf { RegMap.ref with typecDisableStatus := 0 } = false := by decide +kernel

/-! ### Register access -/

/-- V1. -/
theorem test_reg_read :
    let t := after (.regRead 0xA04#32 0#32) (txeq 0xC0#32)
    (t.trace, t.status, t.xR) = ([rd 0xA04#32 0xC0#32, .ret .ok 0xC0#32], Status.ok, 0xC0#32) := by decide +kernel

/-- V4 and V5: a misaligned offset and one outside the map. -/
theorem test_reg_read_refused :
    let t := after (.regRead 0xA02#32 0#32) (rigRef zeroFile)
    let u := after (.regRead 0x00C#32 0#32) (rigRef zeroFile)
    (t.trace, u.trace, t.status)
      = ([.log .illegalCommand, .ret .refused 0#32], [.log .illegalCommand, .ret .refused 0#32], .refused) := by
  decide +kernel

/-- V2: W1C. -/
theorem test_reg_write_w1c :
    let t := after (.regWrite 0xD00#32 1#32) (rigRef { zeroFile with ists := 0x81#32 })
    (t.trace, t.core.ists) = ([wr 0xD00#32 1#32, .ret .ok 0#32], 0x80#32) := by decide +kernel

/-- V9: the RO-hw busy bits ignore a write. -/
theorem test_reg_write_busy :
    (after (.regWrite 0xA00#32 0#32) (phy 0x02003080#32)).core.phyifCtrl = 0x3000#32 := by decide +kernel

/-! ### Interrupt mask controller -/

/-- V10. -/
theorem test_intr_en :
    let t := after (.intrEn 0x81#32 0#32) (rigRef { zeroFile with ien := 4#32 })
    (t.trace, t.core.ien) = (rw 0xD04#32 4#32 0x85#32 ++ [.ret .ok 0#32], 0x85#32) := by decide +kernel

/-- V13: the operand is not masked. -/
theorem test_intr_en_unmasked :
    (after (.intrEn 0xFFFFFF00#32 0#32) (rigRef { zeroFile with ien := 1#32 })).core.ien = 0xFFFFFF01#32 := by decide +kernel

/-- V11. -/
theorem test_intr_dis :
    let t := after (.intrDis 1#32 0#32) (rigRef { zeroFile with ien := 0xFF#32 })
    (t.trace, t.core.ien) = (rw 0xD04#32 0xFF#32 0xFE#32 ++ [.ret .ok 0#32], 0xFE#32) := by decide +kernel

/-- The configuration of V15. -/
def quirkCp : Cfg := { Cfg.ref with quirk := ⟨true, false⟩, cpEnabled := true }

/-- V14. -/
theorem test_global_intr_en :
    (after (.globalIntrEn 0#32 0#32) (rigRef zeroFile)).trace
      = rw 0xD04#32 0#32 0xFF#32 ++ rw 0xE00#32 0#32 3#32 ++ rw 0xD0C#32 0#32 7#32 ++ [.ret .ok 0#32] := by decide +kernel

/-- V15. -/
theorem test_global_intr_en_quirk :
    let t := after (.globalIntrEn 0#32 0#32) (rig quirkCp zeroFile)
    t.trace = rw 0xD04#32 0#32 0xFF#32 ++ rw 0xD04#32 0xFF#32 0xFE#32 ++ rw 0xE00#32 0#32 3#32
        ++ rw 0xD0C#32 0#32 7#32 ++ [.callSecure] ++ rw 0xE08#32 0#32 1#32 ++ [.ret .ok 0#32]
      ∧ t.core.ien = 0xFE#32 := by decide +kernel

/-- V16. -/
theorem test_global_intr_dis :
    (after (.globalIntrDis 0#32 0#32)
        (rig quirkCp { zeroFile with ien := 0xFE#32, wrapIntMask := 3#32, hpdIen := 7#32, cpGpioIntMask := 1#32 })).trace
      = rw 0xD04#32 0xFE#32 0#32 ++ rw 0xE00#32 3#32 0#32 ++ rw 0xD0C#32 7#32 0#32 ++ [.callSecure]
        ++ rw 0xE08#32 1#32 0#32 ++ [.ret .ok 0#32] := by decide +kernel

/-- S4: the second half of the pair, bits outside the toggled masks kept. -/
theorem test_global_intr_dis_keeps :
    let t := after (.globalIntrDis 0#32 0#32)
      (rigRef { zeroFile with ien := 0x1FF#32, wrapIntMask := 0x13#32, hpdIen := 0x17#32 })
    (t.core.ien, t.core.wrapIntMask, t.core.hpdIen) = (0x100#32, 0x10#32, 0x10#32) := by decide +kernel

/-- V17. -/
theorem test_global_intr_clear :
    let t := after (.globalIntrClear 0#32 0#32) (rigRef { zeroFile with ists := 0x41#32, hpdsts := 0x102#32 })
    (t.trace, t.core.ists, t.core.hpdsts)
      = ([wr 0xD00#32 0xFFFFFFFF#32, wr 0xD08#32 0xFFFFFFFF#32, .ret .ok 0#32], 0#32, 0x100#32) := by decide +kernel

/-- HW sets ISTS bit 0 and drives the level bit 8 of HPDSTS. -/
def istsFires : EnvStep := ⟨0, 0, [⟨1#32, 0#32, 0x100#32, 0#32, 0#32, false, none⟩]⟩

/-- V18: a bit set between the two writes stays pending. -/
theorem test_global_intr_clear_race :
    let s := rigRef { zeroFile with ists := 0x41#32, hpdsts := 0x102#32 }
    (after (.globalIntrClear 0#32 0#32) { s with envScript := [quiet, istsFires, quiet] }).core.ists = 1#32 := by
  decide +kernel

/-- V19. -/
theorem test_irq_out :
    let on := { zeroFile with ists := 1#32, ien := 1#32, wrapIntMask := 3#32 }
    (rigRef on).irqOut = true ∧ (rigRef { on with wrapIntMask := 0#32 }).irqOut = false
      ∧ (rigRef { on with ien := 0#32 }).irqOut = false := by decide +kernel

/-- The erratum revision with the wrapper open and only the hot-plug source pending, nothing enabled. -/
def erratumPending : State :=
  rig { Cfg.ref with quirk := ⟨true, false⟩ } { zeroFile with ists := 1#32, wrapIntMask := 3#32 }

/-- R245: GLOBAL_INTR_EN pulses irq_out between its first two writes (trace entries 2 and 4), and not after. -/
theorem test_erratum_window :
    (after (.globalIntrEn 0#32 0#32) erratumPending).lines.map (fun x => (x.events, x.irqOut))
      = [(1, false), (2, true), (3, true), (4, false), (5, false), (6, false), (7, false), (8, false), (9, false)] := by
  decide +kernel

/-- R242: the CP GPIO line follows its event while unmasked, and GLOBAL_INTR_EN masks it. -/
theorem test_cp_irq_out :
    let s := { rig { Cfg.ref with cpEnabled := true } zeroFile with cpEvent := true }
    (s.cpIrqOut, (after (.globalIntrEn 0#32 0#32) s).cpEvent, (after (.globalIntrEn 0#32 0#32) s).cpIrqOut)
      = (true, true, false) := by decide +kernel

/-- R16, R51: the CP part of the mask view, masked, unmasked, and absent without content protection (log 26). -/
theorem test_interrupt_masks_cp :
    let view := fun (cp : Bool) (w : Word) =>
      (rig { Cfg.ref with cpEnabled := cp } { zeroFile with cpGpioIntMask := w }).interruptMasks.cpMasked
    (view true 1#32, view true 0#32, view false 1#32, view false 0#32) = (some true, some false, none, none) := by
  decide +kernel

/-- V20. -/
theorem test_hpd_masked :
    (rigRef { zeroFile with hpdsts := 2#32 }).hpdActive = false
      ∧ (rigRef { zeroFile with hpdsts := 2#32, hpdIen := 2#32 }).hpdActive = true := by decide +kernel

/-! ### Reset sequencer -/

/-- V21. -/
theorem test_soft_reset :
    (after (.softReset 0xFFFFFFFF#32 0#32) (rigRef zeroFile)).trace
      = rw 0x204#32 0#32 0x1F#32 ++ [.wait 0 10] ++ rw 0x204#32 0x1F#32 0#32 ++ [.ret .ok 0#32] := by decide +kernel

/-- V22: a valid bit not requested and a bit outside the valid mask are kept. -/
theorem test_soft_reset_keeps :
    (after (.softReset 0xFFFFFFE3#32 0#32) (rigRef { zeroFile with srstCtrl := 0x80000004#32 })).trace
      = rw 0x204#32 0x80000004#32 0x80000007#32 ++ [.wait 0 10] ++ rw 0x204#32 0x80000007#32 0x80000004#32
        ++ [.ret .ok 0#32] := by decide +kernel

/-- R171. -/
theorem test_soft_reset_all :
    let t := after (.softResetAll 9#32 8#32) (rigRef zeroFile)
    (t.trace, t.xA, t.xM) = (rw 0x204#32 0#32 0x1F#32 ++ [.wait 0 10] ++ rw 0x204#32 0x1F#32 0#32
      ++ [.ret .ok 0#32], 9#32, 0x1F#32) := by decide +kernel

/-- V25. -/
theorem test_phy_soft_reset :
    (after (.phySoftReset 0#32 0#32) (rigRef zeroFile)).trace
      = rw 0x204#32 0#32 2#32 ++ [.wait 0 10] ++ rw 0x204#32 2#32 0#32 ++ [.ret .ok 0#32] := by decide +kernel

/-- V26 and V27. -/
theorem test_typec_ack :
    let f := fun v : Word => (after (.typecAck 0#32 0#32) (rigRef { zeroFile with typeCCtrl := v })).core.typeCCtrl
    (f 2#32, f 1#32, f 0x13#32) = (3#32, 0#32, 0x13#32) := by decide +kernel

/-- V68: HW drops the status between the read and the write. -/
theorem test_typec_ack_race :
    let s := rigRef { zeroFile with typeCCtrl := 2#32 }
    let drop : EnvStep := ⟨0, 0, [⟨0#32, 0#32, 0#32, 0#32, 0#32, false, none⟩]⟩
    let t := after (.typecAck 0#32 0#32) { s with envScript := [quiet, drop, quiet] }
    (t.trace, t.core.typeCCtrl) = (rw 0xC08#32 2#32 3#32 ++ [.ret .ok 0#32], 1#32) := by decide +kernel

/-- V29. -/
theorem test_aux_reset :
    let t := after (.auxReset 1#32 0#32) (rigRef zeroFile)
    (t.trace, t.auxReadyAt) = (rw 0xE04#32 0#32 0x430#32 ++ [.wait 0 1000, .ret .ok 0#32], 1000) := by decide +kernel

/-- V30 and V31. -/
theorem test_aux_reset_off :
    let f := fun a v : Word => (after (.auxReset a 0#32) (rigRef { zeroFile with auxCtrl := v })).core.auxCtrl
    (f 0#32 0xF00F#32, f 0x100#32 0xF03F#32) = (0xF03F#32, 0xF43F#32) := by decide +kernel

/-- The configuration of program P1. -/
def p1Cfg : Cfg := { Cfg.ref with verNumber := 0x01020304#32, verType := 0x05060708#32, idValue := 0x900116C3#32 }

/-- The registers of program P1. -/
def p1File : CoreFile :=
  { zeroFile with typeCCtrl := 2#32, phyifCtrl := 0xFA1#32, cctl := 0xDEADBEEF#32, ists := 0x41#32,
                  hpdsts := 0x102#32 }

/-- P1 and S7: the trace and the captured identity. -/
theorem test_core_init :
    let t := after (.coreInit 0#32 0#32) (rig p1Cfg p1File)
    t.trace = rw 0x204#32 0#32 0x1F#32 ++ [.wait 0 10] ++ rw 0x204#32 0x1F#32 0#32 ++ rw 0xC08#32 2#32 3#32
        ++ rw 0xA00#32 0xFA1#32 0x001E0FA1#32
        ++ [wr 0x200#32 0#32, rd 0x000#32 0x01020304#32, rd 0x004#32 0x05060708#32]
        ++ rw 0xA00#32 0x001E0FA1#32 0x021E0FA1#32 ++ [.ret .ok 0#32]
      ∧ t.verstr.toList = [0x01#8, 0x2E#8, 0x02#8, 0x03#8, 0x04#8, 0x2D#8, 0x05#8, 0x06#8, 0x07#8, 0x08#8]
      ∧ t.version = 0x05060708#32 := by decide +kernel

/-- V35: in simulated mode the width bit is cleared. -/
theorem test_core_init_sim :
    (after (.coreInit 0#32 0#32) (rig { Cfg.ref with simMode := true } { zeroFile with phyifCtrl := 0x02000080#32 })).core.phyifCtrl
      = 0x001E0080#32 := by decide +kernel

/-- V32. -/
theorem test_check_core_id :
    (after (.checkCoreId 0#32 0#32) (rig p1Cfg zeroFile)).trace
      = [rd 0x008#32 0x900116C3#32, .ret .ok 0x900116C3#32] := by decide +kernel

/-- V33. -/
theorem test_check_core_id_mismatch :
    (after (.checkCoreId 0#32 0#32) (rig { Cfg.ref with idValue := 0x900116C2#32 } zeroFile)).trace
      = [rd 0x008#32 0x900116C2#32, .log .identityMismatch, .ret .identityMismatch 0x900116C2#32] := by decide +kernel

/-- V34. -/
theorem test_core_deinit :
    (after (.coreDeinit 0#32 0#32)
        (rig { Cfg.ref with cpEnabled := true }
          { zeroFile with ien := 0xFF#32, wrapIntMask := 3#32, hpdIen := 7#32, cpGpioIntMask := 1#32 })).trace
      = rw 0xD04#32 0xFF#32 0#32 ++ rw 0xE00#32 3#32 0#32 ++ rw 0xD0C#32 7#32 0#32 ++ [.callSecure]
        ++ rw 0xE08#32 1#32 0#32 ++ rw 0x204#32 0#32 0x1F#32 ++ [.wait 0 10] ++ rw 0x204#32 0x1F#32 0#32
        ++ [.ret .ok 0#32] := by decide +kernel

/-! ### PHY lane controller -/

/-- The block with the combined power-down layout. -/
def phyComb (v : Word) : State :=
  rig { Cfg.ref with quirk := ⟨false, true⟩ } { zeroFile with phyifCtrl := v }

/-- V36 and V37: power-down, then power-up with the calibration kick. -/
theorem test_set_lanes_power :
    (after (.setLanesPower 0#32 0#32) (phy 0x02000080#32)).trace
        = rw 0xA00#32 0x02000080#32 0x021E0080#32 ++ [.ret .ok 0#32]
      ∧ (after (.setLanesPower 5#32 0#32) (phy 0x021E0080#32)).trace
        = rw 0xA00#32 0x021E0080#32 0x02000080#32
          ++ [.memWrite .phycr 4#32 0x211#32, .memWrite .phycr 4#32 0#32, .ret .ok 0#32] := by decide +kernel

/-- V38, V39 and V40: the combined layout; the field is replaced. -/
theorem test_set_lanes_power_combined :
    (after (.setLanesPower 0#32 0#32) (phyComb 0x02000080#32)).core.phyifCtrl = 0x02060080#32
      ∧ (after (.setLanesPower 0#32 0#32) (phyComb 0x021E0080#32)).core.phyifCtrl = 0x02060080#32
      ∧ (after (.setLanesPower 1#32 0#32) (phyComb 0x02060080#32)).core.phyifCtrl = 0x02000080#32 := by decide +kernel

/-- V8 and V41: the field value 3 is not validated. -/
theorem test_get_lanes :
    (after (.getLanes 0xDEADBEEF#32 0x12345678#32) (phy 0x02000080#32)).xR = 4#32
      ∧ (after (.getLanes 0#32 0#32) (phy 0x020000C0#32)).xR = 8#32 := by decide +kernel

/-- S1 and V42. -/
theorem test_set_lanes :
    (after (.setLanes 1#32 0#32) (phy 0x020000C0#32)).core.phyifCtrl = 0x02000000#32
      ∧ (after (.setLanes 2#32 0#32) (phy 0x020000C0#32)).core.phyifCtrl = 0x02000040#32
      ∧ (after (.setLanes 4#32 0#32) (phy 0x00000025#32)).core.phyifCtrl = 0x000000A5#32 := by decide +kernel

/-- S3 and V43. -/
theorem test_set_lanes_invalid :
    (after (.setLanes 3#32 0#32) (phy 0x02000040#32)).trace = [.log .invalidLaneCount, .ret .ok 0#32]
      ∧ (after (.setLanes 0xFFFFFFFF#32 0#32) (phy 0x02000040#32)).core.phyifCtrl = 0x02000040#32 := by decide +kernel

/-- V44 and V45. -/
theorem test_set_rate :
    (after (.setRate 7#32 0#32) (phy 0x02000040#32)).trace
        = .log .invalidRate :: rw 0xA00#32 0x02000040#32 0x02000070#32 ++ [.ret .ok 0#32]
      ∧ (after (.setRate 4#32 0#32) (phy 0x02000030#32)).core.phyifCtrl = 0x02000000#32 := by decide +kernel

/-- S8: a rate encoding is stored without a log. -/
theorem test_set_rate_valid :
    (after (.setRate 2#32 0#32) (phy 0x02000080#32)).trace
      = rw 0xA00#32 0x02000080#32 0x020000A0#32 ++ [.ret .ok 0#32] := by decide +kernel

/-- V44: the raw field. -/
theorem test_get_rate :
    (after (.getRate 0#32 0#32) (phy 0x02000070#32)).trace
      = [rd 0xA00#32 0x02000070#32, .ret .ok 3#32] := by decide +kernel

/-- HW drives the busy bits as given. -/
def busyTo (v : Word) : EnvStep := ⟨0, 0, [⟨0#32, 0#32, 0#32, v, 0#32, false, none⟩]⟩

/-- V46: HW clears the selected bits between the reads. -/
theorem test_wait_busy :
    (after (.waitBusy 2#32 0#32)
        { phy 0x3080#32 with envScript := [quiet, busyTo 0x1000#32, quiet, busyTo 0#32, quiet, quiet] }).trace
      = [rd 0xA00#32 0x3080#32, .wait 0 1, rd 0xA00#32 0x1080#32, .wait 1 2, rd 0xA00#32 0x80#32, .ret .ok 0#32] := by
  decide +kernel

/-- V50: two waits of 60000 us pass the deadline. -/
theorem test_wait_busy_timeout :
    let slow : EnvStep := ⟨0, 59999, []⟩
    (after (.waitBusy 4#32 5#32) { phy 0xF080#32 with envScript := List.replicate 8 slow }).trace
      = [rd 0xA00#32 0xF080#32, .wait 0 60000, rd 0xA00#32 0xF080#32, .wait 60000 120000, .log .busy,
         .ret .busy 0xF000#32] := by decide +kernel

/-- V52 and V54. -/
theorem test_set_pre_emphasis :
    (after (.setPreEmphasis 2#32 1#32) (txeq 0x00FFFFFF#32)).core.phyTxEq = 0x00FFDFFF#32
      ∧ (after (.setPreEmphasis 3#32 0xFFFFFFFF#32) (txeq 0x00FFDFF3#32)).trace
        = .log .levelClamped :: rw 0xA04#32 0x00FFDFF3#32 0x00FFDFF3#32 ++ [.ret .ok 0#32] := by decide +kernel

/-- S2: lane 1, level 4 is stored as 3. -/
theorem test_set_pre_emphasis_clamps :
    (after (.setPreEmphasis 1#32 4#32) (txeq 0#32)).core.phyTxEq = 0xC0#32 := by decide +kernel

/-- V53 and V56. -/
theorem test_set_vswing :
    (after (.setVswing 0#32 0#32) (txeq 0x00FFDFFF#32)).core.phyTxEq = 0x00FFDFF3#32
      ∧ (after (.setVswing 3#32 1#32) (txeq 0#32)).core.phyTxEq = 0x00100000#32 := by decide +kernel

/-- V55. -/
theorem test_set_vswing_invalid :
    (after (.setVswing 4#32 9#32) (txeq 0#32)).trace = [.log .invalidLaneIndex, .ret .ok 0#32] := by decide +kernel

/-- V57 and V61. -/
theorem test_set_pattern :
    (after (.setPattern 0x17#32 0#32) (phy 0x02000000#32)).trace
        = rw 0xA00#32 0x02000000#32 0x02000007#32 ++ [.ret .ok 0#32]
      ∧ (after (.setPattern 0#32 0#32) (phy 0x02003061#32)).core.phyifCtrl = 0x02003060#32 := by decide +kernel

/-- V58 and V59. -/
theorem test_enable_xmit :
    (after (.enableXmit 4#32 1#32) (phy 0xA0#32)).core.phyifCtrl = 0xFA0#32
      ∧ (after (.enableXmit 2#32 0#32) (phy 0xFA0#32)).core.phyifCtrl = 0xCA0#32 := by decide +kernel

/-- V60. -/
theorem test_enable_xmit_invalid :
    (after (.enableXmit 3#32 1#32) (phy 0x02000070#32)).trace
      = .log .invalidLanes :: rw 0xA00#32 0x02000070#32 0x02000070#32 ++ [.ret .ok 0#32] := by decide +kernel

/-! ### Translator -/

/-- V62 and V64. -/
theorem test_rate_to_bw :
    (after (.rateToBw 3#32 0#32) (rigRef zeroFile)).xR = 0x1E#32
      ∧ (after (.rateToBw 4#32 0#32) (rigRef zeroFile)).trace
        = [.log .invalidArgument, .ret .invalidArgument 0xFFFFFFEA#32] := by decide +kernel

/-- V66 and V65. -/
theorem test_bw_to_rate :
    (after (.bwToRate 6#32 0#32) (rigRef zeroFile)).trace = [.ret .ok 0#32]
      ∧ (after (.bwToRate 0x0B#32 0#32) (rigRef zeroFile)).status = .invalidArgument := by decide +kernel

/-! ### The step -/

/-- V6. -/
theorem test_step_unknown :
    (match step { rigRef zeroFile with host := [.command 0x7F0000000000000000#72] } with
      | .next t => t.trace
      | _ => []) = [.log .illegalCommand, .ret .refused 0#32] := by decide +kernel

/-- V7: on a detached handle. -/
theorem test_step_detached :
    (match step { State.reset with host := [.command 0x310000000000000000#72], envScript := [quiet] } with
      | .next t => (t.status, readsOf t.trace)
      | _ => (.ok, [])) = (.refused, []) := by decide +kernel

/-- V69: HW sets BUSY(0) between the read and the write of SET_LANES 2. -/
theorem test_rmw_race :
    (after (.setLanes 2#32 0#32)
        { phy 0x02000000#32 with envScript := [quiet, busyTo 0x1000#32, quiet] }).core.phyifCtrl = 0x02001040#32 := by
  decide +kernel

/-- The word the table numbers is the next command after reset, and it runs. -/
theorem test_fetch_word :
    step (State.reset.withFetchWord 72 0x250000000400000000)
      = exec (.coreInit 4#32 0#32) { State.reset with attached := true } := rfl

/-! ### Witnesses: a concrete state and operands for the hypotheses of each statement -/

/-- EncodeOfDecode, DecodeRefusesExactlyUnknownOps: both sides occur, at the ends of the op range. -/
theorem witness_decode_both_sides :
    decode 0x4180000001FFFFFFFF#72 = .ok (.bwToRate 0x80000001#32 0xFFFFFFFF#32)
      ∧ (∃ e, decode 0xFF0000000000000000#72 = .error e) ∧ (∃ e, decode 0x420000000000000000#72 = .error e) :=
  ⟨by decide, ⟨_, rfl⟩, ⟨_, rfl⟩⟩

/-- The idle, attached block with one command presented. -/
def asked (w : CmdWord) : State := { rigRef zeroFile with host := [.command w] }

/-- StepRunsDecodedCommand. -/
theorem witness_StepRunsDecodedCommand :
    (asked 0x310000000000000000#72).host = .command 0x310000000000000000#72 :: []
      ∧ (asked 0x310000000000000000#72).attached = true ∧ (asked 0x310000000000000000#72).pc = .idle
      ∧ decode 0x310000000000000000#72 = .ok (.getLanes 0#32 0#32) := by decide

/-- UnknownOpIsRefusedAndGoesOn, with no reset held. -/
theorem witness_UnknownOpIsRefusedAndGoesOn :
    (asked 0xFF0000000000000000#72).host = .command 0xFF0000000000000000#72 :: []
      ∧ (asked 0xFF0000000000000000#72).attached = true ∧ (asked 0xFF0000000000000000#72).pc = .idle
      ∧ decode 0xFF0000000000000000#72 = .error (.unknownOp 0xFF#8)
      ∧ (asked 0xFF0000000000000000#72).noReset := by unfold State.noReset; decide

/-- The detached block after reset, with one host action. -/
def detachedWith (h : HostAction) : State := { State.reset with host := [h] }

/-- DetachedHandleRefusesCommands. -/
theorem witness_DetachedHandleRefusesCommands :
    (detachedWith (.command 0#72)).host = .command 0#72 :: [] ∧ (detachedWith (.command 0#72)).attached = false
      ∧ (detachedWith (.command 0#72)).pc = .idle ∧ (detachedWith (.command 0#72)).noReset := by
  unfold State.noReset; decide

/-- A block inside a command, with one host action. -/
def midCommand (h : HostAction) : State := { rigRef zeroFile with pc := .running .waitBusy 3, host := [h] }

/-- HostDutiesAreStops, the three actions during a command. -/
theorem witness_HostDutiesAreStops_running :
    (midCommand .detach).host = .detach :: [] ∧ (midCommand .detach).pc ≠ .idle
      ∧ (midCommand (.command 0#72)).host = .command 0#72 :: [] ∧ (midCommand (.command 0#72)).pc ≠ .idle
      ∧ (midCommand (.attach 0 Cfg.ref true)).host = .attach 0 Cfg.ref true :: []
      ∧ (midCommand (.attach 0 Cfg.ref true)).pc ≠ .idle := by decide

/-- A configuration whose map is not well formed. -/
def badCfg : Cfg := { Cfg.ref with map := { RegMap.ref with typecDisableStatus := 0 } }

/-- HostDutiesAreStops, the three attach clauses at idle. -/
theorem witness_HostDutiesAreStops_idle :
    ({ rigRef zeroFile with host := [.attach 0 Cfg.ref true] } : State).attached = true
      ∧ (detachedWith (.attach 0 badCfg true)).host = .attach 0 badCfg true :: []
      ∧ (detachedWith (.attach 0 badCfg true)).pc = .idle ∧ (detachedWith (.attach 0 badCfg true)).attached = false
      ∧ badCfg.wf = false
      ∧ (detachedWith (.attach 0 Cfg.ref false)).host = .attach 0 Cfg.ref false :: []
      ∧ (detachedWith (.attach 0 Cfg.ref false)).attached = false := by decide

/-- AttachBindsHandleOnly. -/
theorem witness_AttachBindsHandleOnly :
    (detachedWith (.attach 0x1000 Cfg.ref true)).host = .attach 0x1000 Cfg.ref true :: []
      ∧ (detachedWith (.attach 0x1000 Cfg.ref true)).pc = .idle
      ∧ (detachedWith (.attach 0x1000 Cfg.ref true)).attached = false ∧ Cfg.ref.wf = true := by decide

/-- DetachKeepsHardware. -/
theorem witness_DetachKeepsHardware :
    ({ rigRef zeroFile with host := [.detach] } : State).host = .detach :: []
      ∧ ({ rigRef zeroFile with host := [.detach] } : State).pc = .idle := by decide

/-- IdleStepIsAFramedHwStep, with no reset held. -/
theorem witness_IdleStepIsAFramedHwStep :
    (rigRef zeroFile).host = [] ∧ (rigRef zeroFile).noReset := by unfold State.noReset; decide

/-- HW raises the hot-plug event. -/
def hotPlug : HwStep := ⟨0#32, 2#32, 0#32, 0#32, 0#32, false, none⟩

/-- A reset domain in which bit 1 covers the low half of IEN, and that bit held. -/
def ienHeld : State :=
  rig { Cfg.ref with srstDomain := .custom [⟨1, .core .ien, 0xFFFF#32⟩] } { zeroFile with srstCtrl := 2#32 }

/-- HeldResetStaysInItsDomain: a held bit leaves part of IEN open, keeps the rest of it and all of HPD_IEN. -/
theorem witness_HeldResetStaysInItsDomain :
    ienHeld.held = 2#32 ∧ ienHeld.cfg.fillMask ienHeld.held .ien = 0xFFFF#32
      ∧ ienHeld.cfg.fillMask ienHeld.held .hpdIen = 0#32 ∧ rwBits ienHeld.cfg.map .ien = 0xFFFFFFFF#32 := by decide

/-- HotPlugEventLatchesTopLevel: an event makes an unmasked sub-event active, and a write unmasks a pending one. -/
theorem witness_HotPlugEventLatchesTopLevel :
    let s := rigRef { zeroFile with hpdIen := 2#32 }
    let u := rigRef { zeroFile with hpdsts := 2#32 }
    s.cfg.wf = true ∧ s.hpdActive = false ∧ (s.hwStep hotPlug).hpdActive = true
      ∧ u.cfg.wf = true ∧ u.hpdActive = false ∧ (u.storeCore .hpdIen 7#32).hpdActive = true := by decide

/-- WriteActsBitByBit: a bit of each kind, at the top of its register where it has one. -/
theorem witness_WriteActsBitByBit :
    let m := RegMap.ref
    bitAt (m.roHwMask .hpdsts) 31 = true ∧ bitAt (m.roHwMask .phyifCtrl) 15 = true
      ∧ bitAt (m.w1cMask .hpdsts) 2 = true ∧ bitAt (m.w1cMask .ists) 7 = true ∧ bitAt (m.roHwMask .hpdsts) 2 = false
      ∧ bitAt (m.w1cMask .ists) 31 = false ∧ bitAt (m.roHwMask .ists) 31 = false
      ∧ bitAt (m.roHwMask .ien) 31 = false ∧ bitAt (m.w1cMask .ien) 31 = false := by decide

/-- RegReadReturnsRegister, with no reset held. -/
theorem witness_RegReadReturnsRegister :
    (rigRef zeroFile).cfg.regAt 0xE04#32 = some .auxCtrl ∧ (rigRef zeroFile).noReset := by
  unfold State.noReset; decide

/-- RegWriteStoresOperand: AUX_CTRL, and SRST_CTRL written without a valid bit. -/
theorem witness_RegWriteStoresOperand :
    (rigRef zeroFile).cfg.regAt 0xE04#32 = some .auxCtrl ∧ (rigRef zeroFile).cfg.regAt 0x204#32 = some .srstCtrl
      ∧ (rigRef zeroFile).noReset ∧ 0xFFFFFFE0#32 &&& (rigRef zeroFile).cfg.map.srstValid = 0#32 := by
  unfold State.noReset; decide

/-- RawAccessOffTheMapIsRefused: past the map, misaligned, and the absent CP GPIO mask. -/
theorem witness_RawAccessOffTheMapIsRefused :
    (rigRef zeroFile).cfg.regAt 0xE0C#32 = none ∧ (rigRef zeroFile).cfg.regAt 0xA02#32 = none
      ∧ (rigRef zeroFile).cfg.regAt 0xE08#32 = none ∧ (rigRef zeroFile).noReset := by
  unfold State.noReset; decide

/-- The statements whose only hypothesis is that no reset is held: IntrEnOrsIntoIen, IntrDisClearsInIen,
GlobalIntrEnStagesInOrder, GlobalIntrDisStagesInOrder, TypecAckCopiesStatus, AuxResetProgramsAndSettles,
CheckCoreIdComparesWholeWord, SetLanesPowerDrivesAllLanes, GetLanesDecodesField, SetRateStoresTruncated,
GetRateReturnsField, SetPatternStoresTruncated, EnableXmitSetsSelectedLanes; their clauses ask a well-formed map too. -/
theorem witness_noReset :
    (rigRef zeroFile).noReset ∧ (rigRef zeroFile).cfg.wf = true
      ∧ (rigRef zeroFile).cfg.map.typecDisableAck ≠ (rigRef zeroFile).cfg.map.typecDisableStatus := by
  unfold State.noReset; decide

/-- GlobalEnableDisablePair. -/
theorem witness_GlobalEnableDisablePair :
    let s := rigRef zeroFile
    let t := after (.globalIntrEn 0#32 0#32) s
    s.cfg.wf = true ∧ s.noReset ∧ exec (.globalIntrEn 0#32 0#32) s = .next t
      ∧ exec (.globalIntrDis 0#32 0#32) t = .next (after (.globalIntrDis 0#32 0#32) t) :=
  ⟨by decide, by unfold State.noReset; decide, rfl, rfl⟩

/-- GlobalIntrClearClearsStatus: three quiet gaps, no reset held. -/
theorem witness_GlobalIntrClearClearsStatus : HwQuiet 3 (rigRef zeroFile) ∧ (rigRef zeroFile).noReset := by
  unfold HwQuiet State.noReset; decide

/-- GlobalIntrEnStagesInOrder, the window of R245 and its quiet case. -/
theorem witness_GlobalIntrEnStagesInOrder :
    let s := erratumPending
    s.noReset ∧ s.cfg.wf = true ∧ s.cfg.quirk.hpdErratum = true ∧ s.wrapOpen = true
      ∧ bitAt s.core.ists s.cfg.map.ienHpd = true ∧ HwQuiet 12 s ∧ s.core.ien &&& s.cfg.map.ienAll = 0#32
      ∧ s.core.ists &&& s.cfg.map.ienAll = bitMask s.cfg.map.ienHpd := by
  unfold State.noReset HwQuiet; decide

/-- MasksGateTheInterruptOutput: each of its conditions, with every other source pending and, for the sub-events, one enabled
that is not pending. -/
theorem witness_MasksGateTheInterruptOutput :
    let s := rigRef { zeroFile with ists := 0xFF#32, hpdsts := 6#32, ien := 0xFFFFFF00#32, hpdIen := 0xFFFFFFF9#32 }
    let c := { rig { Cfg.ref with cpEnabled := true } { zeroFile with cpGpioIntMask := 1#32 } with cpEvent := true }
    s.core.ien &&& s.cfg.map.ienAll = 0#32 ∧ s.core.wrapIntMask = wrapMask s.cfg.map 0#32
      ∧ (bitAt s.core.hpdsts s.cfg.map.hpdIrq = true → bitAt s.core.hpdIen s.cfg.map.hpdIenIrq = false)
      ∧ (bitAt s.core.hpdsts s.cfg.map.hpdHotPlug = true → bitAt s.core.hpdIen s.cfg.map.hpdIenHotPlug = false)
      ∧ (bitAt s.core.hpdsts s.cfg.map.hpdHotUnplug = true → bitAt s.core.hpdIen s.cfg.map.hpdIenHotUnplug = false)
      ∧ bitAt s.core.hpdIen s.cfg.map.hpdIenIrq = true
      ∧ bitAt c.core.cpGpioIntMask c.cfg.map.cpGpioBit = c.cfg.map.cpSetIsMask ∧ c.cfg.cpEnabled = true
      ∧ s.cfg.cpEnabled = false := by decide

/-- GlobalDisableQuietsTheOutput: from a pending interrupt. -/
theorem witness_GlobalDisableQuietsTheOutput :
    let s := rigRef { zeroFile with ists := 1#32, hpdsts := 2#32, ien := 1#32, hpdIen := 7#32, wrapIntMask := 3#32 }
    s.noReset ∧ s.irqOut = true ∧ exec (.globalIntrDis 0#32 0#32) s = .next (after (.globalIntrDis 0#32 0#32) s) :=
  ⟨by unfold State.noReset; decide, by decide, rfl⟩

/-- SoftResetAssertsHoldsDeasserts: an operand with no valid bit, no reset held. -/
theorem witness_SoftResetAssertsHoldsDeasserts :
    (rigRef zeroFile).noReset ∧ 0xFFFFFFE0#32 &&& (rigRef zeroFile).cfg.map.srstValid = 0#32 := by
  unfold State.noReset; decide

/-- CoreInitEstablishes. -/
theorem witness_CoreInitEstablishes : (rig p1Cfg p1File).cfg.wf = true := by decide

/-- SetLanesStoresLogOrLogs: the three counts that exist and the numbers beside them. -/
theorem witness_SetLanesStoresLogOrLogs :
    (rigRef zeroFile).noReset ∧ ((4#32 : Word) = 1#32 ∧ (2#32 : Word) = 0#32 ∨ (4#32 : Word) = 2#32 ∧ (2#32 : Word) = 1#32
      ∨ (4#32 : Word) = 4#32 ∧ (2#32 : Word) = 2#32) ∧ (∀ a : Word, a = 0#32 ∨ a = 3#32 ∨ a = 5#32 ∨ a = 0xFFFFFFFF#32 →
      a ≠ 1#32 ∧ a ≠ 2#32 ∧ a ≠ 4#32) := by
  refine ⟨by unfold State.noReset; decide, by decide, fun a h => ?_⟩
  rcases h with rfl | rfl | rfl | rfl <;> decide

/-- LaneCountRoundTrip: its three counts. -/
theorem witness_LaneCountRoundTrip :
    ∀ n ∈ [1#32, 2#32, 4#32],
      (n = 1#32 ∨ n = 2#32 ∨ n = 4#32) ∧ (phy 0xC0#32).cfg.wf = true ∧ (phy 0xC0#32).noReset
        ∧ exec (.setLanes n 0#32) (phy 0xC0#32) = .next (after (.setLanes n 0#32) (phy 0xC0#32))
        ∧ exec (.getLanes 0#32 0#32) (after (.setLanes n 0#32) (phy 0xC0#32))
          = .next (after (.getLanes 0#32 0#32) (after (.setLanes n 0#32) (phy 0xC0#32))) := by
  unfold State.noReset
  intro n hn
  simp only [List.mem_cons, List.not_mem_nil, or_false] at hn
  rcases hn with rfl | rfl | rfl <;> exact ⟨by decide, by decide, by decide, rfl, rfl⟩

/-- RateRoundTrip: the smallest and the largest encoding. -/
theorem witness_RateRoundTrip :
    (phy 0#32).cfg.wf = true ∧ (phy 0#32).noReset ∧ 0#32 ∈ (phy 0#32).cfg.map.rates
      ∧ 3#32 ∈ (phy 0#32).cfg.map.rates
      ∧ exec (.setRate 3#32 0#32) (phy 0#32) = .next (after (.setRate 3#32 0#32) (phy 0#32))
      ∧ exec (.getRate 0#32 0#32) (after (.setRate 3#32 0#32) (phy 0#32))
        = .next (after (.getRate 0#32 0#32) (after (.setRate 3#32 0#32) (phy 0#32))) :=
  ⟨by decide, by unfold State.noReset; decide, by decide, by decide, rfl, rfl⟩

/-- WaitBusySimulatedIsImmediate. -/
theorem witness_WaitBusySimulatedIsImmediate :
    (rig { Cfg.ref with simMode := true } zeroFile).cfg.simMode = true
      ∧ (rig { Cfg.ref with simMode := true } zeroFile).noReset := by unfold State.noReset; decide

/-- A deadline of 2 us and gaps that take no time, so that a held busy flag runs into it. -/
def stuckBusy : State :=
  rig { Cfg.ref with tBusyDeadline := 2 } { zeroFile with phyifCtrl := 0xF080#32 }

/-- WaitBusyOutcomes: both ends occur, with no reset held. -/
theorem witness_WaitBusyOutcomes :
    (phy 0xF080#32).cfg.simMode = false ∧ (phy 0xF080#32).noReset
      ∧ (after (.waitBusy 3#32 0#32) (phy 0xF080#32)).status = .ok
      ∧ stuckBusy.cfg.simMode = false ∧ stuckBusy.noReset ∧ (after (.waitBusy 4#32 0#32) stuckBusy).status = .busy := by
  unfold State.noReset; decide +kernel

/-- WaitBusyStartsClear: busy lanes 2 and 3 are not selected. -/
theorem witness_WaitBusyStartsClear :
    (phy 0xC080#32).cfg.simMode = false ∧ HwQuiet 2 (phy 0xC080#32)
      ∧ (phy 0xC080#32).core.phyifCtrl &&& laneBits (phy 0xC080#32).cfg.map.busy 2#32 = 0#32 := by
  unfold HwQuiet; decide

/-- WaitBusyReadsAreBounded: two reads. -/
theorem witness_WaitBusyReadsAreBounded :
    stuckBusy.cfg.simMode = false
      ∧ exec (.waitBusy 4#32 0#32) stuckBusy = .next (after (.waitBusy 4#32 0#32) stuckBusy)
      ∧ (readsOf (after (.waitBusy 4#32 0#32) stuckBusy).trace).length = 2 :=
  ⟨by decide, rfl, by decide +kernel⟩

/-- EqualizationSettersClampOrLog: lanes 3 and 4, levels 3 and 4. -/
theorem witness_EqualizationSettersClampOrLog :
    (Instr.setVswing 3#32 4#32 = .setVswing 3#32 4#32 ∧ RegMap.ref.vswing = (txeq 0#32).cfg.map.vswing)
      ∧ (3#32 : Word).toNat ≤ 3 ∧ 3 < (4#32 : Word).toNat ∧ (txeq 0#32).noReset ∧ (txeq 0#32).cfg.wf = true := by
  unfold State.noReset; decide

/-- EqualizationFieldsAreIndependent: the last lane. -/
theorem witness_EqualizationFieldsAreIndependent :
    (txeq 0x00FFFFFF#32).cfg.wf = true ∧ (txeq 0x00FFFFFF#32).noReset ∧ (3#32 : Word).toNat ≤ 3
      ∧ exec (.setPreEmphasis 3#32 0#32) (txeq 0x00FFFFFF#32)
        = .next (after (.setPreEmphasis 3#32 0#32) (txeq 0x00FFFFFF#32))
      ∧ exec (.setVswing 3#32 0#32) (txeq 0x00FFFFFF#32) = .next (after (.setVswing 3#32 0#32) (txeq 0x00FFFFFF#32)) :=
  ⟨by decide, by unfold State.noReset; decide, by decide, rfl, rfl⟩

/-- PhyTransitionsAreIndependent: each of the five commands. -/
theorem witness_PhyTransitionsAreIndependent :
    let s := phy 0xFFFFFFFF#32
    s.cfg.wf = true ∧ s.noReset
      ∧ exec (.setPattern 4#32 0#32) s = .next (after (.setPattern 4#32 0#32) s)
      ∧ exec (.setRate 4#32 0#32) s = .next (after (.setRate 4#32 0#32) s)
      ∧ exec (.setLanes 4#32 0#32) s = .next (after (.setLanes 4#32 0#32) s)
      ∧ exec (.enableXmit 4#32 0#32) s = .next (after (.enableXmit 4#32 0#32) s)
      ∧ exec (.setLanesPower 4#32 0#32) s = .next (after (.setLanesPower 4#32 0#32) s) :=
  ⟨by decide, by unfold State.noReset; decide, rfl, rfl, rfl, rfl, rfl⟩

/-- TranslatorsFollowTheirTables: the first and last row, and an operand beside them, both ways. -/
theorem witness_TranslatorsFollowTheirTables :
    let s := rigRef zeroFile
    s.cfg.wf = true ∧ s.noReset
      ∧ (Instr.rateToBw 3#32 0#32 = .rateToBw 3#32 0#32 ∧ RegMap.ref.rates = s.cfg.map.rates
        ∧ RegMap.ref.bandwidths = s.cfg.map.bandwidths)
      ∧ RegMap.ref.rates[0]? = some 0#32 ∧ RegMap.ref.rates[3]? = some 3#32 ∧ 4#32 ∉ RegMap.ref.rates
      ∧ RegMap.ref.bandwidths[3]? = some 0x1E#32 ∧ 0#32 ∉ RegMap.ref.bandwidths := by
  unfold State.noReset; decide

/-- TranslatorRoundTrip: HBR3 and its constant. -/
theorem witness_TranslatorRoundTrip :
    let s := rigRef zeroFile
    let t := after (.rateToBw 3#32 0#32) s
    let u := after (.bwToRate 0x1E#32 0#32) s
    s.cfg.wf = true ∧ 3#32 ∈ s.cfg.map.rates ∧ exec (.rateToBw 3#32 0#32) s = .next t
      ∧ exec (.bwToRate t.xR 0#32) t = .next (after (.bwToRate t.xR 0#32) t)
      ∧ 0x1E#32 ∈ s.cfg.map.bandwidths ∧ exec (.bwToRate 0x1E#32 0#32) s = .next u
      ∧ exec (.rateToBw u.xR 0#32) u = .next (after (.rateToBw u.xR 0#32) u) :=
  ⟨by decide, by decide, rfl, rfl, by decide, rfl, rfl⟩

/-- OnlyTheseCommandsReportErrors and ErrorsLeaveNoWrites: each of the four errors occurs. -/
theorem witness_errors_occur :
    exec (.waitBusy 4#32 0#32) stuckBusy = .next (after (.waitBusy 4#32 0#32) stuckBusy)
      ∧ (after (.waitBusy 4#32 0#32) stuckBusy).status = .busy
      ∧ exec (.checkCoreId 0#32 0#32) (rigRef zeroFile) = .next (after (.checkCoreId 0#32 0#32) (rigRef zeroFile))
      ∧ (after (.checkCoreId 0#32 0#32) (rigRef zeroFile)).status = .identityMismatch
      ∧ exec (.bwToRate 0#32 0#32) (rigRef zeroFile) = .next (after (.bwToRate 0#32 0#32) (rigRef zeroFile))
      ∧ (after (.bwToRate 0#32 0#32) (rigRef zeroFile)).status = .invalidArgument
      ∧ exec (.regWrite 0xE0C#32 0#32) (rigRef zeroFile) = .next (after (.regWrite 0xE0C#32 0#32) (rigRef zeroFile))
      ∧ (after (.regWrite 0xE0C#32 0#32) (rigRef zeroFile)).status = .refused :=
  ⟨rfl, by decide +kernel, rfl, by decide, rfl, by decide, rfl, by decide⟩

/-- OnlyLanePowerUpReachesPhycr: a power-down, and a command that is none. -/
theorem witness_OnlyLanePowerUpReachesPhycr :
    exec (.setLanesPower 0#32 1#32) (phy 0#32) = .next (after (.setLanesPower 0#32 1#32) (phy 0#32))
      ∧ (∀ a b, Instr.setLanesPower 0#32 1#32 = .setLanesPower a b → a = 0#32)
      ∧ (∀ a b, Instr.coreInit 0#32 1#32 = .setLanesPower a b → a = 0#32) := by
  refine ⟨rfl, ?_, ?_⟩ <;> intro a b h <;> injection h
  simp_all

/-- OnlyCoreInitCaptures. -/
theorem witness_OnlyCoreInitCaptures :
    exec (.softResetAll 0#32 0#32) (phy 0#32) = .next (after (.softResetAll 0#32 0#32) (phy 0#32))
      ∧ ∀ a b, Instr.softResetAll 0#32 0#32 ≠ .coreInit a b :=
  ⟨rfl, fun _ _ h => by injection h⟩

/-- OnlyResetCommandsChangeSrstCtrl: V24, an already asserted bit is de-asserted. -/
theorem witness_OnlyResetCommandsChangeSrstCtrl :
    let s := rigRef { zeroFile with srstCtrl := 2#32 }
    exec (.softReset 2#32 0#32) s = .next (after (.softReset 2#32 0#32) s)
      ∧ (after (.softReset 2#32 0#32) s).core.srstCtrl ≠ s.core.srstCtrl := ⟨rfl, by decide⟩

/-- EveryStepKeepsInv and TimeTraceAndCfgOfEveryStep: a command, at an attached block. -/
theorem witness_EveryStepKeepsInv :
    (asked 0x250000000000000000#72).Inv ∧ (asked 0x250000000000000000#72).attached = true
      ∧ step (asked 0x250000000000000000#72)
        = .next (after (.coreInit 0#32 0#32) { asked 0x250000000000000000#72 with host := [] }) := by
  refine ⟨?_, rfl, rfl⟩
  unfold State.Inv State.settled
  decide

end Sys2Proof.Tests
end

/-! PROOFS: what a step can do, and the host actions that have no next state. -/

namespace Sys2Proof.Machine

/-! ### One step: the head of the host's queue -/

section host
variable {s t : State}

theorem step_of_host_nil (h : s.host = []) : step s = .next s.envMove := by
  simp [step, h]
theorem step_of_host_cons {a : HostAction} {rest : List HostAction} (h : s.host = a :: rest) :
    step s = (s.withHost rest).hostAct a := by
  simp [step, h]

/-- What a step that goes on has done: a move of the environment, or the next host action (R13). -/
theorem step_next (h : step s = .next t) :
    t = s.envMove ∨ ∃ a rest, s.host = a :: rest ∧ (s.withHost rest).hostAct a = .next t := by
  cases hq : s.host with
  | nil =>
    rw [step_of_host_nil hq] at h
    injection h with h
    exact .inl h.symm
  | cons a rest => exact .inr ⟨a, rest, rfl, step_of_host_cons hq ▸ h⟩

/-! #### What each host action does while a command runs -/

theorem State.hostCommand_running (w : CmdWord) (hpc : s.pc ≠ .idle) :
    s.hostCommand w = .refused .commandInFlight := if_pos hpc
theorem State.hostDetach_running (hpc : s.pc ≠ .idle) : s.hostDetach = .refused .detachInFlight := if_pos hpc
theorem State.hostAttach_running (b : Nat) (c : Cfg) (rd : Bool) (hpc : s.pc ≠ .idle) :
    s.hostAttach b c rd = .refused .attachInFlight := if_pos hpc

/-! #### What each host action does between commands -/

theorem State.hostDetach_idle (hpc : s.pc = .idle) : s.hostDetach = .next s.detach := by
  simp [State.hostDetach, hpc]
theorem State.hostAttach_attached (b : Nat) (c : Cfg) (rd : Bool) (hpc : s.pc = .idle)
    (ha : s.attached = true) : s.hostAttach b c rd = .refused .doubleAttach := by
  simp [State.hostAttach, hpc, ha]
theorem State.hostAttach_unreadable (b : Nat) (c : Cfg) (hpc : s.pc = .idle) (ha : s.attached = false) :
    s.hostAttach b c false = .fault .windowUnmapped := by
  simp [State.hostAttach, hpc, ha]
theorem State.hostAttach_illFormed (b : Nat) (c : Cfg) (hpc : s.pc = .idle) (ha : s.attached = false)
    (hc : c.wf = false) : s.hostAttach b c true = .refused .illFormedConfig := by
  simp [State.hostAttach, hpc, ha, hc]
theorem State.hostAttach_wf (b : Nat) (c : Cfg) (hpc : s.pc = .idle) (ha : s.attached = false)
    (hc : c.wf = true) : s.hostAttach b c true = .next (s.attach b c) := by
  simp [State.hostAttach, hpc, ha, hc]
theorem State.hostCommand_detached (w : CmdWord) (hpc : s.pc = .idle) (ha : s.attached = false) :
    s.hostCommand w = .next s.refuseDetached := by
  simp [State.hostCommand, hpc, ha]
theorem State.hostCommand_decoded {w : CmdWord} {i : Instr} (hpc : s.pc = .idle) (ha : s.attached = true)
    (hw : decode w = .ok i) : s.hostCommand w = exec i s := by
  simp [State.hostCommand, hpc, ha, hw]
theorem State.hostCommand_unknown {w : CmdWord} {e : DecodeError} (hpc : s.pc = .idle)
    (ha : s.attached = true) (hw : decode w = .error e) : s.hostCommand w = .next s.illegalCommand := by
  simp [State.hostCommand, hpc, ha, hw]

/-! #### What a host action that goes on has done -/

/-- A detach that goes on was made between commands (R273). -/
theorem State.hostDetach_next (h : s.hostDetach = .next t) : s.pc = .idle ∧ t = s.detach := by
  by_cases hpc : s.pc = .idle
  · rw [State.hostDetach_idle hpc] at h
    injection h with h
    exact ⟨hpc, h.symm⟩
  · rw [State.hostDetach_running hpc] at h
    cases h

/-- An attach that goes on found a detached handle between commands, a readable window and a well-formed map
(R272, R117). -/
theorem State.hostAttach_next {b : Nat} {c : Cfg} {rd : Bool} (h : s.hostAttach b c rd = .next t) :
    s.pc = .idle ∧ s.attached = false ∧ rd = true ∧ c.wf = true ∧ t = s.attach b c := by
  by_cases hpc : s.pc = .idle
  case neg => rw [State.hostAttach_running b c rd hpc] at h; cases h
  cases ha : s.attached with
  | true => rw [State.hostAttach_attached b c rd hpc ha] at h; cases h
  | false =>
    cases rd with
    | false => rw [State.hostAttach_unreadable b c hpc ha] at h; cases h
    | true =>
      cases hc : c.wf with
      | false => rw [State.hostAttach_illFormed b c hpc ha hc] at h; cases h
      | true =>
        rw [State.hostAttach_wf b c hpc ha hc] at h
        injection h with h
        exact ⟨hpc, rfl, rfl, rfl, h.symm⟩

/-- A command that goes on was presented between commands: refused on a detached handle, illegal, or run
(R101, R125, R273). -/
theorem State.hostCommand_next {w : CmdWord} (h : s.hostCommand w = .next t) :
    s.pc = .idle ∧ ((s.attached = false ∧ t = s.refuseDetached)
      ∨ (s.attached = true ∧ (∃ e, decode w = .error e) ∧ t = s.illegalCommand)
      ∨ (s.attached = true ∧ ∃ i, decode w = .ok i ∧ exec i s = .next t)) := by
  by_cases hpc : s.pc = .idle
  case neg => rw [State.hostCommand_running w hpc] at h; cases h
  refine ⟨hpc, ?_⟩
  cases ha : s.attached with
  | false =>
    rw [State.hostCommand_detached w hpc ha] at h
    injection h with h
    exact .inl ⟨rfl, h.symm⟩
  | true =>
    cases hw : decode w with
    | error e =>
      rw [State.hostCommand_unknown hpc ha hw] at h
      injection h with h
      exact .inr (.inl ⟨rfl, ⟨e, rfl⟩, h.symm⟩)
    | ok i => exact .inr (.inr ⟨rfl, i, rfl, State.hostCommand_decoded hpc ha hw ▸ h⟩)

end host

/-! ### Time, trace, record of the lines and configuration along a run -/

/-- From `s` to `t` time does not go back, the trace and the record of the lines are only added to, and the
configuration stays (R7, R27, R28, log 24). Every micro-step does this, so every micro-sequence does. -/
structure Advances (s t : State) : Prop where
  now : s.now ≤ t.now
  trace : s.trace <+: t.trace
  lines : s.lines <+: t.lines
  cfg : t.cfg = s.cfg

theorem Advances.refl (s : State) : Advances s s :=
  ⟨le_rfl, List.prefix_rfl, List.prefix_rfl, rfl⟩

theorem Advances.trans {s t u : State} (h : Advances s t) (h' : Advances t u) : Advances s u :=
  ⟨h.now.trans h'.now, h.trace.trans h'.trace, h.lines.trans h'.lines, h'.cfg.trans h.cfg⟩

namespace Advances
variable {s t u : State}

/-! #### A choice of the micro-sequence -/

theorem ite {p : Prop} [Decidable p] (h : Advances s t) (h' : Advances s u) :
    Advances s (if p then t else u) := by
  split
  · exact h
  · exact h'

/-- A stage that may be left out. -/
theorem ite_then {p : Prop} [Decidable p] (h : Advances s t) (h' : Advances t u) :
    Advances s (if p then u else t) := ite (h.trans h') h
theorem ite_else {p : Prop} [Decidable p] (h : Advances s t) (h' : Advances t u) :
    Advances s (if p then t else u) := ite h (h.trans h')

/-! #### Updates of single registers: the clock, the trace and the record stand -/

section updates
variable (h : Advances s t)
include h

theorem withB (v : Word) : Advances s (t.withB v) := ⟨h.now, h.trace, h.lines, h.cfg⟩
theorem withT (v : Word) : Advances s (t.withT v) := ⟨h.now, h.trace, h.lines, h.cfg⟩
theorem withM (v : Word) : Advances s (t.withM v) := ⟨h.now, h.trace, h.lines, h.cfg⟩
theorem withDeadline (d : Nat) : Advances s (t.withDeadline d) := ⟨h.now, h.trace, h.lines, h.cfg⟩
theorem withPc (p : Pc) : Advances s (t.withPc p) := ⟨h.now, h.trace, h.lines, h.cfg⟩
theorem accept (op : Op) (a b : Word) : Advances s (t.accept op a b) := ⟨h.now, h.trace, h.lines, h.cfg⟩
theorem pushFrame (op : Op) (a b : Word) : Advances s (t.pushFrame op a b) :=
  ⟨h.now, h.trace, h.lines, h.cfg⟩
theorem captureNumber (v : Word) : Advances s (t.captureNumber v) := ⟨h.now, h.trace, h.lines, h.cfg⟩
theorem captureType (v : Word) : Advances s (t.captureType v) := ⟨h.now, h.trace, h.lines, h.cfg⟩
theorem storePhycr (v : Word) : Advances s (t.storePhycr v) := ⟨h.now, h.trace, h.lines, h.cfg⟩
theorem detach : Advances s t.detach := ⟨h.now, h.trace, h.lines, h.cfg⟩
theorem popFrame : Advances s t.popFrame :=
  ⟨by simpa using h.now, by simpa using h.trace, by simpa using h.lines, by simpa using h.cfg⟩
theorem storeCore (r : CoreReg) (v : Word) : Advances s (t.storeCore r v) :=
  ⟨by simpa using h.now, by simpa using h.trace, by simpa using h.lines, by simpa using h.cfg⟩

/-- The clock is set forward. -/
theorem withNow {n : Nat} (hn : t.now ≤ n) : Advances s (t.withNow n) :=
  ⟨h.now.trans hn, h.trace, h.lines, h.cfg⟩

/-! #### The environment, and the end of a micro-step -/

theorem envMove : Advances s t.envMove :=
  h.trans ⟨t.le_envMove_now, t.envMove_trace ▸ List.prefix_rfl, t.envMove_lines, t.envMove_cfg⟩
/-- One entry is added to the trace and one sample to the record (R28, R242). -/
theorem done (e : Event) : Advances s (t.done e) :=
  h.trans ⟨le_rfl, List.prefix_append _ _, List.prefix_append _ _, rfl⟩
theorem finish (st : Status) (v : Word) : Advances s (t.finish st v) :=
  h.trans ⟨le_rfl, List.prefix_append _ _, List.prefix_append _ _, rfl⟩

/-! #### Micro-steps -/

theorem memRead (r : CoreReg) {keep : State → Word → State} (hk : ∀ x v, Advances x (keep x v)) :
    Advances s (t.memRead r keep) := (h.envMove.trans (hk _ _)).done _
theorem readT (r : CoreReg) : Advances s (t.readT r) := h.memRead r fun x => (refl x).withT
theorem memWrite (r : CoreReg) (v : Word) : Advances s (t.memWrite r v) := (h.envMove.storeCore r v).done _
theorem phycrWrite (v : Word) : Advances s (t.phycrWrite v) := (h.envMove.storePhycr v).done _
theorem wait (d : Nat) : Advances s (t.wait d) := (h.envMove.withNow (by omega)).done _
theorem logEvent (id : LogId) : Advances s (t.logEvent id) := h.envMove.done _
theorem callSecure : Advances s t.callSecure := h.envMove.done _
theorem ret (st : Status) (v : Word) : Advances s (t.ret st v) := h.envMove.finish st v
theorem raiseError (id : LogId) (st : Status) (v : Word) : Advances s (t.raiseError id st v) :=
  (h.logEvent id).ret st v

/-! #### Idioms (R80, R122, R23) -/

theorem rmw (r : CoreReg) (f : Word → Word) : Advances s (t.rmw r f) := (h.readT r).memWrite r _
theorem rmwT (r : CoreReg) (f : Word → Word) : Advances s (t.rmwT r f) :=
  ((h.readT r).withT _).memWrite r _
theorem selectLanes (k : PerLane BitPos) : Advances s (t.selectLanes k) :=
  (h.ite_else ((refl t).logEvent _)).withM _
/-- A nested call of a body that advances. -/
theorem callOp (op : Op) (a b : Word) {body : State → State} (hb : ∀ x, Advances x (body x)) :
    Advances s (t.callOp op a b body) := ((h.pushFrame op a b).trans (hb _)).popFrame

end updates
end Advances

/-! ### The micro-sequences -/

section sequences
variable (s : State)

theorem State.intrEnSeq_advances : Advances s s.intrEnSeq := (Advances.refl s).rmw _ _
theorem State.intrDisSeq_advances : Advances s s.intrDisSeq := (Advances.refl s).rmw _ _
theorem State.erratumStage_advances : Advances s s.erratumStage :=
  (Advances.refl s).ite_then ((Advances.refl s).callOp _ _ _ State.intrDisSeq_advances)
theorem State.cpStage_advances (f : Word → Word) : Advances s (s.cpStage f) :=
  (Advances.refl s).ite_then ((Advances.refl s).callSecure.rmw _ f)
theorem State.globalIntrEnSeq_advances : Advances s s.globalIntrEnSeq := by
  have enabled := (Advances.refl s).callOp .intrEn s.cfg.map.ienAll 0#32 State.intrEnSeq_advances
  exact (((enabled.trans (State.erratumStage_advances _)).rmw _ _).rmw _ _).trans (State.cpStage_advances _ _)
theorem State.globalIntrDisSeq_advances : Advances s s.globalIntrDisSeq := by
  have disabled := (Advances.refl s).callOp .intrDis s.cfg.map.ienAll 0#32 State.intrDisSeq_advances
  exact ((disabled.rmw _ _).rmw _ _).trans (State.cpStage_advances _ _)

theorem State.setLanesPowerSeq_advances : Advances s s.setLanesPowerSeq :=
  (((((Advances.refl s).readT _).ite_else ((Advances.refl _).withM _)).withT _).memWrite _ _).ite_then
    (((Advances.refl _).phycrWrite _).phycrWrite _)
theorem State.pollTimeout_advances : Advances s s.pollTimeout := (Advances.refl s).raiseError _ _ _

/-- The busy poll advances, however many times it reads (R197). -/
theorem State.pollBusy_advances (top : Pc) (n : Nat) : Advances s (State.pollBusy top n s) := by
  induction n generalizing s with
  | zero => exact ((Advances.refl s).withNow (le_max_left _ _)).trans (State.pollTimeout_advances _)
  | succ n ih =>
    have read := (Advances.refl s).readT .phyifCtrl
    have waited := read.wait (s.readT .phyifCtrl).cfg.tPoll
    exact .ite (read.ret _ _)
      (.ite (waited.trans (State.pollTimeout_advances _)) ((waited.withPc top).trans (ih _)))

theorem State.waitBusySeq_advances : Advances s s.waitBusySeq :=
  (((Advances.refl s).selectLanes _).withDeadline _).trans (State.pollBusy_advances _ _ _)
theorem State.setLevel_advances (fields : PerLane Field) : Advances s (s.setLevel fields) := by
  have clamped := (Advances.refl s).ite_then (p := aboveThree s.xB = true)
    (((Advances.refl s).logEvent .levelClamped).withB (clamp3 s.xB))
  exact .ite (((Advances.refl s).logEvent _).ret _ _) ((clamped.rmw _ _).ret _ _)
theorem State.translated_advances (found : Option Word) : Advances s (s.translated found) := by
  cases found with
  | some v => exact (Advances.refl s).ret _ _
  | none => exact (Advances.refl s).raiseError _ _ _

theorem State.srstAssert_advances : Advances s s.srstAssert := by
  unfold State.srstAssert
  exact ((Advances.refl s).withM _).rmw _ _
theorem State.srstDeassert_advances : Advances s s.srstDeassert := (Advances.refl s).rmw _ _
theorem State.softResetSeq_advances : Advances s s.softResetSeq :=
  (s.srstAssert_advances.wait _).trans (State.srstDeassert_advances _)
theorem State.softResetAllSeq_advances : Advances s s.softResetAllSeq :=
  (Advances.refl s).callOp _ _ _ State.softResetSeq_advances
theorem State.phySoftResetSeq_advances : Advances s s.phySoftResetSeq :=
  (Advances.refl s).callOp _ _ _ State.softResetSeq_advances
theorem State.typecAckSeq_advances : Advances s s.typecAckSeq := (Advances.refl s).rmwT _ _
theorem State.auxResetSeq_advances : Advances s s.auxResetSeq := ((Advances.refl s).rmwT _ _).wait _
theorem State.phyWidthInit_advances : Advances s s.phyWidthInit := (Advances.refl s).rmwT _ _
theorem State.coreInitSeq_advances : Advances s s.coreInitSeq := by
  have reset := (Advances.refl s).callOp .softResetAll 0#32 0#32 State.softResetAllSeq_advances
  have acked := reset.callOp .typecAck 0#32 0#32 State.typecAckSeq_advances
  have powered := acked.callOp .setLanesPower 0#32 0#32 State.setLanesPowerSeq_advances
  have number := (powered.memWrite .cctl 0#32).memRead .verNumber fun x => (Advances.refl x).captureNumber
  exact (number.memRead .verType fun x => (Advances.refl x).captureType).trans (State.phyWidthInit_advances _)
theorem State.coreDeinitSeq_advances : Advances s s.coreDeinitSeq :=
  ((Advances.refl s).callOp _ _ _ State.globalIntrDisSeq_advances).callOp _ _ _ State.softResetAllSeq_advances

theorem State.illegalCommand_advances : Advances s s.illegalCommand := (Advances.refl s).raiseError _ _ _
theorem State.refuseDetached_advances : Advances s s.refuseDetached := (Advances.refl s).ret _ _

end sequences

/-! ### The commands -/

section commands
variable (a b : Word) (s : State)

theorem execRegRead_advances : ∃ t, execRegRead a b s = .next t ∧ Advances s t := by
  have accepted := (Advances.refl s).accept .regRead a b
  simp only [execRegRead]
  split
  · exact ⟨_, rfl, (accepted.readT _).ret _ _⟩
  · exact ⟨_, rfl, accepted.trans (State.illegalCommand_advances _)⟩

theorem execRegWrite_advances : ∃ t, execRegWrite a b s = .next t ∧ Advances s t := by
  have accepted := (Advances.refl s).accept .regWrite a b
  simp only [execRegWrite]
  split
  · exact ⟨_, rfl, (accepted.memWrite _ _).ret _ _⟩
  · exact ⟨_, rfl, accepted.trans (State.illegalCommand_advances _)⟩

theorem execSetLanes_advances : ∃ t, execSetLanes a b s = .next t ∧ Advances s t := by
  have accepted := (Advances.refl s).accept .setLanes a b
  simp only [execSetLanes]
  split
  · exact ⟨_, rfl, (accepted.rmw _ _).ret _ _⟩
  · exact ⟨_, rfl, (accepted.logEvent _).ret _ _⟩

end commands

/-- Every command answers a next state, and advances (R297). -/
theorem exec_advances (i : Instr) (s : State) : ∃ t, exec i s = .next t ∧ Advances s t := by
  have accepted (op : Op) (a b : Word) : Advances s (s.accept op a b) := (Advances.refl s).accept op a b
  cases i with
  | regRead a b => exact execRegRead_advances a b s
  | regWrite a b => exact execRegWrite_advances a b s
  | intrEn a b => exact ⟨_, rfl, ((accepted _ a b).trans (State.intrEnSeq_advances _)).ret _ _⟩
  | intrDis a b => exact ⟨_, rfl, ((accepted _ a b).trans (State.intrDisSeq_advances _)).ret _ _⟩
  | globalIntrEn a b => exact ⟨_, rfl, ((accepted _ a b).trans (State.globalIntrEnSeq_advances _)).ret _ _⟩
  | globalIntrDis a b => exact ⟨_, rfl, ((accepted _ a b).trans (State.globalIntrDisSeq_advances _)).ret _ _⟩
  | globalIntrClear a b => exact ⟨_, rfl, (((accepted _ a b).memWrite _ _).memWrite _ _).ret _ _⟩
  | softReset a b => exact ⟨_, rfl, ((accepted _ a b).trans (State.softResetSeq_advances _)).ret _ _⟩
  | softResetAll a b => exact ⟨_, rfl, ((accepted _ a b).trans (State.softResetAllSeq_advances _)).ret _ _⟩
  | phySoftReset a b => exact ⟨_, rfl, ((accepted _ a b).trans (State.phySoftResetSeq_advances _)).ret _ _⟩
  | typecAck a b => exact ⟨_, rfl, ((accepted _ a b).trans (State.typecAckSeq_advances _)).ret _ _⟩
  | auxReset a b => exact ⟨_, rfl, ((accepted _ a b).trans (State.auxResetSeq_advances _)).ret _ _⟩
  | coreInit a b => exact ⟨_, rfl, ((accepted _ a b).trans (State.coreInitSeq_advances _)).ret _ _⟩
  | checkCoreId a b =>
    have read := (accepted .checkCoreId a b).readT .id
    exact ⟨_, rfl, .ite (read.ret _ _) (read.raiseError _ _ _)⟩
  | coreDeinit a b => exact ⟨_, rfl, ((accepted _ a b).trans (State.coreDeinitSeq_advances _)).ret _ _⟩
  | setLanesPower a b => exact ⟨_, rfl, ((accepted _ a b).trans (State.setLanesPowerSeq_advances _)).ret _ _⟩
  | getLanes a b => exact ⟨_, rfl, ((accepted _ a b).readT _).ret _ _⟩
  | setLanes a b => exact execSetLanes_advances a b s
  | setRate a b =>
    exact ⟨_, rfl, (((accepted _ a b).ite_else ((Advances.refl _).logEvent _)).rmw _ _).ret _ _⟩
  | getRate a b => exact ⟨_, rfl, ((accepted _ a b).readT _).ret _ _⟩
  | waitBusy a b =>
    have start := accepted .waitBusy a b
    exact ⟨_, rfl, .ite (start.ret _ _) (start.trans (State.waitBusySeq_advances _))⟩
  | setPreEmphasis a b => exact ⟨_, rfl, (accepted _ a b).trans (State.setLevel_advances _ _)⟩
  | setVswing a b => exact ⟨_, rfl, (accepted _ a b).trans (State.setLevel_advances _ _)⟩
  | setPattern a b => exact ⟨_, rfl, ((accepted _ a b).rmw _ _).ret _ _⟩
  | enableXmit a b => exact ⟨_, rfl, (((accepted _ a b).selectLanes _).rmwT _ _).ret _ _⟩
  | rateToBw a b => exact ⟨_, rfl, (accepted _ a b).trans (State.translated_advances _ _)⟩
  | bwToRate a b => exact ⟨_, rfl, (accepted _ a b).trans (State.translated_advances _ _)⟩

/-! ### The host actions and the step -/

theorem State.hostCommand_advances {s t : State} {w : CmdWord} (h : s.hostCommand w = .next t) :
    Advances s t := by
  obtain ⟨-, ⟨-, rfl⟩ | ⟨-, -, rfl⟩ | ⟨-, i, -, hi⟩⟩ := State.hostCommand_next h
  · exact s.refuseDetached_advances
  · exact s.illegalCommand_advances
  · obtain ⟨u, hu, adv⟩ := exec_advances i s
    rw [hu] at hi
    injection hi with hi
    exact hi ▸ adv

/-- A step advances, or it attaches a detached handle, which alone gives a new configuration (R7, R26, R272). -/
theorem step_advances_or_attaches {s t : State} (h : step s = .next t) :
    Advances s t ∨ (s.attached = false ∧ ∃ rest b c, t = (s.withHost rest).attach b c) := by
  obtain rfl | ⟨a, rest, -, ha⟩ := step_next h
  · exact .inl (Advances.refl s).envMove
  have queued : Advances s (s.withHost rest) := ⟨le_rfl, List.prefix_rfl, List.prefix_rfl, rfl⟩
  cases a with
  | attach b c rd =>
    obtain ⟨-, detached, -, -, rfl⟩ := State.hostAttach_next ha
    exact .inr ⟨detached, rest, b, c, rfl⟩
  | detach =>
    obtain ⟨-, rfl⟩ := State.hostDetach_next ha
    exact .inl queued.detach
  | command w => exact .inl (queued.trans (State.hostCommand_advances ha))

/-- Settles O60: every micro-step advances, so every command does; an attach keeps clock, trace and record. -/
theorem timeTraceAndCfgOfEveryStep : Obligations.TimeTraceAndCfgOfEveryStep := by
  intro s t h
  obtain adv | ⟨detached, rest, b, c, rfl⟩ := step_advances_or_attaches h
  · obtain ⟨new, hnew⟩ := adv.trace
    exact ⟨adv.now, ⟨new, hnew.symm⟩, adv.lines, fun _ => adv.cfg⟩
  · exact ⟨le_rfl, ⟨[], (List.append_nil _).symm⟩, List.prefix_rfl, by simp [detached]⟩

/-- Settles O8: each clause is the equation of its host action at the head of the queue. -/
theorem hostDutiesAreStops : Obligations.HostDutiesAreStops := by
  refine fun s rest => ⟨fun w hq hpc => ?_, fun hq hpc => ?_, fun b c rd hq hpc ha => ?_,
    fun b c rd hq hpc => ?_, fun b c hq hpc ha hc => ?_, fun b c hq hpc ha => ?_⟩ <;>
    rw [step_of_host_cons hq]
  · exact State.hostCommand_running w hpc
  · exact State.hostDetach_running hpc
  · exact State.hostAttach_attached b c rd hpc ha
  · exact State.hostAttach_running b c rd hpc
  · exact State.hostAttach_illFormed b c hpc ha hc
  · exact State.hostAttach_unreadable b c hpc ha

end Sys2Proof.Machine

/-! PROOFS: how every command ends, what no command but CORE_INIT captures and no command but the resets writes into
SRST_CTRL, the invariant of runs, the idle step and the raw access off the map. -/

namespace Sys2Proof.Machine

/-! ### The micro-sequences keep the run: only the identity capture and the busy poll's deadline are outside -/

theorem RunKept.ite {s t u : State} {p : Prop} [Decidable p] (h : RunKept s t) (h' : RunKept s u) :
    RunKept s (if p then t else u) := by
  split
  · exact h
  · exact h'

/-- A nested call of a sequence that always keeps the run (R23). -/
theorem State.callOp_runKept (s : State) (op : Op) (a b : Word) {body : State → State}
    (h : ∀ x, RunKept x (body x)) : RunKept s (s.callOp op a b body) :=
  (State.callOp_spec s op a b body (h _)).1

section sequences
variable (s : State)

theorem State.envMove_runKept : RunKept s s.envMove :=
  ⟨by simp [HandleKept], s.le_envMove_now, by simp [CaptureKept], by simp⟩

theorem State.intrEnSeq_runKept : RunKept s s.intrEnSeq := s.rmw_runKept _ _
theorem State.intrDisSeq_runKept : RunKept s s.intrDisSeq := s.rmw_runKept _ _
theorem State.erratumStage_runKept : RunKept s s.erratumStage :=
  (s.callOp_runKept _ _ _ State.intrDisSeq_runKept).ite (RunKept.refl s)
theorem State.cpStage_runKept (f : Word → Word) : RunKept s (s.cpStage f) :=
  (s.callSecure_runKept.trans (State.rmw_runKept _ _ _)).ite (RunKept.refl s)
theorem State.globalIntrEnSeq_runKept : RunKept s s.globalIntrEnSeq := by
  have enabled := s.callOp_runKept .intrEn s.cfg.map.ienAll 0#32 State.intrEnSeq_runKept
  have quirked := enabled.trans (State.erratumStage_runKept _)
  exact ((quirked.trans (State.rmw_runKept _ _ _)).trans (State.rmw_runKept _ _ _)).trans
    (State.cpStage_runKept _ _)
theorem State.globalIntrDisSeq_runKept : RunKept s s.globalIntrDisSeq := by
  have disabled := s.callOp_runKept .intrDis s.cfg.map.ienAll 0#32 State.intrDisSeq_runKept
  exact ((disabled.trans (State.rmw_runKept _ _ _)).trans (State.rmw_runKept _ _ _)).trans
    (State.cpStage_runKept _ _)

theorem State.setLanesPowerSeq_runKept : RunKept s s.setLanesPowerSeq := by
  obtain ⟨_, -, kept, -⟩ := s.setLanesPowerSeq_spec
  exact kept
theorem State.selectLanes_runKept (k : PerLane BitPos) : RunKept s (s.selectLanes k) :=
  ((RunKept.refl s).ite (s.logEvent_runKept _)).trans (State.withM_runKept _ _)

theorem State.softResetSeq_runKept : RunKept s s.softResetSeq := by
  obtain ⟨_, _, -, -, -, -, -, kept, -⟩ := s.softResetSeq_spec
  exact kept
theorem State.softResetAllSeq_runKept : RunKept s s.softResetAllSeq :=
  s.callOp_runKept _ _ _ State.softResetSeq_runKept
theorem State.phySoftResetSeq_runKept : RunKept s s.phySoftResetSeq :=
  s.callOp_runKept _ _ _ State.softResetSeq_runKept
theorem State.typecAckSeq_runKept : RunKept s s.typecAckSeq := s.rmwT_runKept _ _
theorem State.auxResetSeq_runKept : RunKept s s.auxResetSeq :=
  (s.rmwT_runKept _ _).trans (State.wait_runKept _ _)
theorem State.coreDeinitSeq_runKept : RunKept s s.coreDeinitSeq :=
  (s.callOp_runKept _ _ _ State.globalIntrDisSeq_runKept).trans
    (State.callOp_runKept _ _ _ _ State.softResetAllSeq_runKept)

end sequences

/-! ### How a command ends -/

/-- A command that began in `s` has ended in `t`: idle, with the handle, the host's queue, the return stack and the
captured identity of `s` (R22, R23, R25, R26). -/
structure EndsKeeping (s t : State) : Prop where
  pc : t.pc = .idle
  handle : HandleKept s t
  capture : CaptureKept s t

section ends
variable {s u t : State}

theorem RunKept.ret (h : RunKept s u) (st : Status) (v : Word) : EndsKeeping s (u.ret st v) := by
  have kept := h.trans (u.ret_runKept st v)
  exact ⟨u.ret_pc st v, kept.hk, kept.ck⟩

theorem RunKept.raiseError (h : RunKept s u) (id : LogId) (st : Status) (v : Word) :
    EndsKeeping s (u.raiseError id st v) := (h.trans (u.logEvent_runKept id)).ret st v

theorem RunKept.trans_ends (h : RunKept s u) (h' : EndsKeeping u t) : EndsKeeping s t := by
  obtain ⟨pc, ⟨att, base, cfg, host, stack⟩, verstr, version⟩ := h'
  obtain ⟨⟨att₀, base₀, cfg₀, host₀, stack₀⟩, -, ⟨verstr₀, version₀⟩, -⟩ := h
  exact ⟨pc, ⟨att.trans att₀, base.trans base₀, cfg.trans cfg₀, host.trans host₀, stack.trans stack₀⟩,
    verstr.trans verstr₀, version.trans version₀⟩

theorem EndsKeeping.ite {p : Prop} [Decidable p] (h : EndsKeeping s t) (h' : EndsKeeping s u) :
    EndsKeeping s (if p then t else u) := by
  split
  · exact h
  · exact h'

end ends

section commands
variable (s : State)

theorem State.illegalCommand_ends : EndsKeeping s s.illegalCommand := (RunKept.refl s).raiseError _ _ _
theorem State.refuseDetached_ends : EndsKeeping s s.refuseDetached := (RunKept.refl s).ret _ _

/-- WAIT_BUSY writes DEADLINE, and the poll ends by the last read or at the deadline (R197). -/
theorem State.waitBusySeq_ends : EndsKeeping s s.waitBusySeq := by
  let selected := s.selectLanes s.cfg.map.busy
  let start := selected.withDeadline (selected.now + selected.cfg.tBusyDeadline)
  obtain ⟨_, _, _, polled⟩ := State.pollBusy_spec start.pc (start.cfg.tBusyDeadline + 1) start (Nat.succ_pos _)
  have ends : EndsKeeping selected s.waitBusySeq := ⟨polled.pc, polled.b.hk, polled.b.ck⟩
  exact (s.selectLanes_runKept _).trans_ends ends

theorem State.setLevel_ends (fields : PerLane Field) : EndsKeeping s (s.setLevel fields) := by
  have clamped := ((s.logEvent_runKept .levelClamped).trans (State.withB_runKept _ (clamp3 s.xB))).ite
    (p := aboveThree s.xB = true) (RunKept.refl s)
  exact ((s.logEvent_runKept _).ret _ _).ite ((clamped.trans (State.rmw_runKept _ _ _)).ret _ _)

theorem State.translated_ends (found : Option Word) : EndsKeeping s (s.translated found) := by
  cases found with
  | some v => exact (RunKept.refl s).ret _ _
  | none => exact (RunKept.refl s).raiseError _ _ _

variable (a b : Word)

theorem execRegRead_ends : ∃ t, execRegRead a b s = .next t ∧ EndsKeeping s t := by
  have accepted := s.accept_runKept .regRead a b
  simp only [execRegRead]
  split
  · exact ⟨_, rfl, (accepted.trans (State.readT_runKept _ _)).ret _ _⟩
  · exact ⟨_, rfl, accepted.trans_ends (State.illegalCommand_ends _)⟩

theorem execRegWrite_ends : ∃ t, execRegWrite a b s = .next t ∧ EndsKeeping s t := by
  have accepted := s.accept_runKept .regWrite a b
  simp only [execRegWrite]
  split
  · exact ⟨_, rfl, (accepted.trans (State.memWrite_runKept _ _ _)).ret _ _⟩
  · exact ⟨_, rfl, accepted.trans_ends (State.illegalCommand_ends _)⟩

theorem execSetLanes_ends : ∃ t, execSetLanes a b s = .next t ∧ EndsKeeping s t := by
  have accepted := s.accept_runKept .setLanes a b
  simp only [execSetLanes]
  split
  · exact ⟨_, rfl, (accepted.trans (State.rmw_runKept _ _ _)).ret _ _⟩
  · exact ⟨_, rfl, (accepted.trans (State.logEvent_runKept _ _)).ret _ _⟩

/-- CORE_INIT ends like the others, but for the identity that it captures (R176). -/
theorem execCoreInit_ends :
    ∃ t, execCoreInit a b s = .next t ∧ t.pc = .idle ∧ HandleKept s t :=
  ⟨_, rfl, State.ret_pc _ _ _, by simp [HandleKept]⟩

end commands

/-- Every command but CORE_INIT ends idle, with the handle, the return stack and the captured identity it began with. -/
theorem exec_endsKeeping (i : Instr) (s : State) (hi : ∀ a b, i ≠ .coreInit a b) :
    ∃ t, exec i s = .next t ∧ EndsKeeping s t := by
  have accepted (op : Op) (a b : Word) : RunKept s (s.accept op a b) := s.accept_runKept op a b
  cases i with
  | regRead a b => exact execRegRead_ends s a b
  | regWrite a b => exact execRegWrite_ends s a b
  | intrEn a b => exact ⟨_, rfl, ((accepted _ a b).trans (State.intrEnSeq_runKept _)).ret _ _⟩
  | intrDis a b => exact ⟨_, rfl, ((accepted _ a b).trans (State.intrDisSeq_runKept _)).ret _ _⟩
  | globalIntrEn a b => exact ⟨_, rfl, ((accepted _ a b).trans (State.globalIntrEnSeq_runKept _)).ret _ _⟩
  | globalIntrDis a b => exact ⟨_, rfl, ((accepted _ a b).trans (State.globalIntrDisSeq_runKept _)).ret _ _⟩
  | globalIntrClear a b =>
    have cleared := (accepted .globalIntrClear a b).trans (State.memWrite_runKept _ .ists Word.ones)
    exact ⟨_, rfl, (cleared.trans (State.memWrite_runKept _ _ _)).ret _ _⟩
  | softReset a b => exact ⟨_, rfl, ((accepted _ a b).trans (State.softResetSeq_runKept _)).ret _ _⟩
  | softResetAll a b => exact ⟨_, rfl, ((accepted _ a b).trans (State.softResetAllSeq_runKept _)).ret _ _⟩
  | phySoftReset a b => exact ⟨_, rfl, ((accepted _ a b).trans (State.phySoftResetSeq_runKept _)).ret _ _⟩
  | typecAck a b => exact ⟨_, rfl, ((accepted _ a b).trans (State.typecAckSeq_runKept _)).ret _ _⟩
  | auxReset a b => exact ⟨_, rfl, ((accepted _ a b).trans (State.auxResetSeq_runKept _)).ret _ _⟩
  | coreInit a b => exact absurd rfl (hi a b)
  | checkCoreId a b =>
    have read := (accepted .checkCoreId a b).trans (State.readT_runKept _ .id)
    exact ⟨_, rfl, (read.ret _ _).ite (read.raiseError _ _ _)⟩
  | coreDeinit a b => exact ⟨_, rfl, ((accepted _ a b).trans (State.coreDeinitSeq_runKept _)).ret _ _⟩
  | setLanesPower a b => exact ⟨_, rfl, ((accepted _ a b).trans (State.setLanesPowerSeq_runKept _)).ret _ _⟩
  | getLanes a b => exact ⟨_, rfl, ((accepted _ a b).trans (State.readT_runKept _ _)).ret _ _⟩
  | setLanes a b => exact execSetLanes_ends s a b
  | setRate a b =>
    have checked := (accepted .setRate a b).ite (p := validRate s.cfg.map a = true)
      ((accepted .setRate a b).trans (State.logEvent_runKept _ .invalidRate))
    exact ⟨_, rfl, (checked.trans (State.rmw_runKept _ _ _)).ret _ _⟩
  | getRate a b => exact ⟨_, rfl, ((accepted _ a b).trans (State.readT_runKept _ _)).ret _ _⟩
  | waitBusy a b =>
    have start := accepted .waitBusy a b
    exact ⟨_, rfl, (start.ret _ _).ite (start.trans_ends (State.waitBusySeq_ends _))⟩
  | setPreEmphasis a b => exact ⟨_, rfl, (accepted _ a b).trans_ends (State.setLevel_ends _ _)⟩
  | setVswing a b => exact ⟨_, rfl, (accepted _ a b).trans_ends (State.setLevel_ends _ _)⟩
  | setPattern a b => exact ⟨_, rfl, ((accepted _ a b).trans (State.rmw_runKept _ _ _)).ret _ _⟩
  | enableXmit a b =>
    have selected := (accepted .enableXmit a b).trans (State.selectLanes_runKept _ s.cfg.map.xmitEn)
    exact ⟨_, rfl, (selected.trans (State.rmwT_runKept _ _ _)).ret _ _⟩
  | rateToBw a b => exact ⟨_, rfl, (accepted _ a b).trans_ends (State.translated_ends _ _)⟩
  | bwToRate a b => exact ⟨_, rfl, (accepted _ a b).trans_ends (State.translated_ends _ _)⟩

/-- Every command, CORE_INIT included, ends idle with the handle and the return stack it began with (R22, R23). -/
theorem exec_ends (i : Instr) (s : State) : ∃ t, exec i s = .next t ∧ t.pc = .idle ∧ HandleKept s t := by
  by_cases hi : ∃ a b, i = .coreInit a b
  · obtain ⟨a, b, rfl⟩ := hi
    exact execCoreInit_ends s a b
  · obtain ⟨t, ht, ends⟩ := exec_endsKeeping i s fun a b e => hi ⟨a, b, e⟩
    exact ⟨t, ht, ends.pc, ends.handle⟩

/-- Settles O56: the traversal of the commands, CORE_INIT left out, keeps the captured identity. -/
theorem onlyCoreInitCaptures : Obligations.OnlyCoreInitCaptures := by
  intro i s t h hi
  obtain ⟨u, hu, ends⟩ := exec_endsKeeping i s hi
  rw [hu] at h
  injection h with h
  exact h ▸ ends.capture

/-! ### The invariant of runs -/

section invariant
variable {s t : State}

theorem State.Inv.pc_idle (inv : s.Inv) : s.pc = .idle := inv.1.1

/-- The invariant speaks of the handle, the return stack and pc alone. -/
theorem State.Inv.of_handleKept (inv : s.Inv) (hpc : t.pc = .idle) (kept : HandleKept s t) : t.Inv := by
  obtain ⟨⟨-, stack⟩, wf⟩ := inv
  obtain ⟨att, -, cfg, -, stack'⟩ := kept
  exact ⟨⟨hpc, stack'.trans stack⟩, fun ht => cfg ▸ wf (att ▸ ht)⟩

theorem State.hostCommand_ends {w : CmdWord} (h : s.hostCommand w = .next t) :
    t.pc = .idle ∧ HandleKept s t := by
  obtain ⟨-, ⟨-, rfl⟩ | ⟨-, -, rfl⟩ | ⟨-, i, -, hi⟩⟩ := State.hostCommand_next h
  · exact ⟨s.refuseDetached_ends.pc, s.refuseDetached_ends.handle⟩
  · exact ⟨s.illegalCommand_ends.pc, s.illegalCommand_ends.handle⟩
  · obtain ⟨u, hu, ends⟩ := exec_ends i s
    rw [hu] at hi
    injection hi with hi
    exact hi ▸ ends

theorem State.hostAct_inv {a : HostAction} (inv : s.Inv) (h : s.hostAct a = .next t) : t.Inv := by
  cases a with
  | attach b c rd =>
    obtain ⟨-, -, -, wf, rfl⟩ := State.hostAttach_next h
    exact ⟨⟨rfl, rfl⟩, fun _ => wf⟩
  | detach =>
    obtain ⟨-, rfl⟩ := State.hostDetach_next h
    exact ⟨inv.1, fun ht => absurd ht (by simp)⟩
  | command w =>
    obtain ⟨hpc, kept⟩ := State.hostCommand_ends h
    exact inv.of_handleKept hpc kept

end invariant

/-- Settles O58: a gap and a command keep the handle and the return stack and leave pc idle; an attach checks its map;
a detach leaves nothing attached. -/
theorem everyStepKeepsInv : Obligations.EveryStepKeepsInv := by
  intro s t inv h
  obtain rfl | ⟨a, rest, -, ha⟩ := step_next h
  · exact inv.of_handleKept (s.envMove_pc.trans inv.pc_idle) s.envMove_runKept.hk
  · have queued : (s.withHost rest).Inv := inv
    exact State.hostAct_inv queued ha

/-- Settles O59: the reset state, field by field. -/
theorem resetIsDetachedAndIdle : Obligations.ResetIsDetachedAndIdle :=
  ⟨⟨⟨rfl, rfl⟩, fun attached => absurd attached (by decide)⟩, rfl, rfl, rfl⟩

/-! ### The idle step, and a raw access off the map -/

/-- Settles O11: an idle step is one move of the environment. -/
theorem idleStepIsAFramedHwStep : Obligations.IdleStepIsAFramedHwStep := by
  intro s hq
  have kept := s.envMove_runKept
  exact ⟨s.envMove, step_of_host_nil hq, s.envMove_trace, kept.hk, ⟨kept.ck, kept.dl, s.envMove_auxReadyAt⟩,
    s.envMove_pc, s.envMove_status, s.envMove_xA, s.envMove_xB, s.envMove_xT, s.envMove_xM, s.envMove_xR,
    kept.now, s.envMove_srstCtrl, fun noReset => s.envMove_fileKept [] noReset⟩

/-- An illegal command or offset logs its event and ends refused, with no access (R125, R141). -/
theorem State.illegalCommand_spec (s : State) :
    let t := s.illegalCommand
    t.trace = s.trace ++ [.log .illegalCommand, .ret .refused 0#32] ∧ t.status = .refused ∧ t.xR = 0#32
      ∧ t.xA = s.xA ∧ t.xB = s.xB ∧ t.xT = s.xT ∧ t.xM = s.xM ∧ t.pc = .idle ∧ RunKept s t
      ∧ t.auxReadyAt = s.auxReadyAt ∧ (s.noReset → FileKept s t []) :=
  ⟨s.raiseError_trace _ _ _, s.raiseError_status _ _ _, s.raiseError_xR _ _ _, s.raiseError_xA _ _ _,
    s.raiseError_xB _ _ _, s.raiseError_xT _ _ _, s.raiseError_xM _ _ _, s.raiseError_pc _ _ _,
    s.raiseError_runKept _ _ _, s.raiseError_auxReadyAt _ _ _, s.raiseError_fileKept [] _ _ _⟩

/-- A raw access of an offset that names no register is, after its acceptance, an illegal command (R141, R142). -/
theorem exec_raw_of_regAt_none {s : State} {a b : Word} {i : Instr} (hi : i = .regRead a b ∨ i = .regWrite a b)
    (off : s.cfg.regAt a = none) : ∃ op, exec i s = .next (s.accept op a b).illegalCommand := by
  obtain rfl | rfl := hi
  · exact ⟨.regRead, by simp [exec, execRegRead, off]⟩
  · exact ⟨.regWrite, by simp [exec, execRegWrite, off]⟩

/-- Settles O17: acceptance loads the operands, and the refusal of `illegalCommand` follows. -/
theorem rawAccessOffTheMapIsRefused : Obligations.RawAccessOffTheMapIsRefused := by
  intro s a b i hi off
  obtain ⟨op, hexec⟩ := exec_raw_of_regAt_none hi off
  obtain ⟨trace, status, xR, xA, xB, xT, xM, pc, kept, aux, file⟩ := (s.accept op a b).illegalCommand_spec
  have run := (s.accept_runKept op a b).trans kept
  exact ⟨_, hexec, trace, status, xR, xT, xM, ⟨run.hk, pc, xA, xB, run.now⟩, ⟨run.ck, run.dl, aux⟩, file⟩

/-! ### SRST_CTRL along a command (R34, R277) -/

/-- The stored word of SRST_CTRL is the same in `t` as in `s`. -/
def SrstKept (s t : State) : Prop := t.core.srstCtrl = s.core.srstCtrl

section srst
variable {s u t : State}

theorem SrstKept.trans (h : SrstKept s u) (h' : SrstKept u t) : SrstKept s t := Eq.trans h' h
theorem SrstKept.ite {p : Prop} [Decidable p] (h : SrstKept s t) (h' : SrstKept s u) :
    SrstKept s (if p then t else u) := by
  split
  · exact h
  · exact h'

variable (s)

theorem State.readT_srstKept (r : CoreReg) : SrstKept s (s.readT r) := by simp [SrstKept]
theorem State.logEvent_srstKept (id : LogId) : SrstKept s (s.logEvent id) := by simp [SrstKept]
theorem State.wait_srstKept (d : Nat) : SrstKept s (s.wait d) := by simp [SrstKept]
theorem State.ret_srstKept (st : Status) (v : Word) : SrstKept s (s.ret st v) := by simp [SrstKept]
theorem State.raiseError_srstKept (id : LogId) (st : Status) (v : Word) : SrstKept s (s.raiseError id st v) :=
  (s.logEvent_srstKept id).trans (State.ret_srstKept _ st v)
theorem State.translated_srstKept (found : Option Word) : SrstKept s (s.translated found) := by
  cases found with
  | some v => exact s.ret_srstKept _ _
  | none => exact s.raiseError_srstKept _ _ _

/-- The busy poll reads and waits, and ends by a `ret` or an error: it writes no register (R197). -/
theorem State.pollBusy_srstKept (top : Pc) (n : Nat) : SrstKept s (State.pollBusy top n s) := by
  induction n generalizing s with
  | zero => exact State.raiseError_srstKept (s.withNow _) _ _ _
  | succ n ih =>
    have read := s.readT_srstKept .phyifCtrl
    have waited := read.trans (State.wait_srstKept _ (s.readT .phyifCtrl).cfg.tPoll)
    exact (read.trans (State.ret_srstKept _ _ _)).ite
      ((waited.trans (State.raiseError_srstKept _ _ _ _)).ite (waited.trans (ih (State.withPc _ top))))

theorem State.waitBusySeq_srstKept : SrstKept s s.waitBusySeq :=
  SrstKept.trans (s.selectLanes_srst s.cfg.map.busy) (State.pollBusy_srstKept (State.withDeadline _ _) _ _)

end srst

theorem SrstKept.ret {s u : State} (h : SrstKept s u) (st : Status) (v : Word) : SrstKept s (u.ret st v) :=
  h.trans (u.ret_srstKept st v)

section commands
variable (a b : Word) (s : State)

theorem execRegRead_srstKept : ∃ t, execRegRead a b s = .next t ∧ SrstKept s t := by
  simp only [execRegRead]
  split
  · exact ⟨_, rfl, SrstKept.ret (State.readT_srstKept (s.accept .regRead a b) _) _ _⟩
  · exact ⟨_, rfl, State.raiseError_srstKept (s.accept .regRead a b) _ _ _⟩

/-- A raw write of another offset, or of none, leaves SRST_CTRL (R142). -/
theorem execRegWrite_srstKept (off : s.cfg.regAt a ≠ some .srstCtrl) :
    ∃ t, execRegWrite a b s = .next t ∧ SrstKept s t := by
  simp only [execRegWrite, State.accept_cfg, State.accept_xA]
  split
  next r hr =>
    have other : r ≠ .srstCtrl := fun e => off (e ▸ hr)
    exact ⟨_, rfl, SrstKept.ret (State.memWrite_srst_ne (s.accept .regWrite a b) r _ other) _ _⟩
  next => exact ⟨_, rfl, State.raiseError_srstKept (s.accept .regWrite a b) _ _ _⟩

theorem execSetLanes_srstKept : ∃ t, execSetLanes a b s = .next t ∧ SrstKept s t := by
  simp only [execSetLanes]
  split
  · exact ⟨_, rfl, SrstKept.ret (State.rmw_srst_ne (s.accept .setLanes a b) _ _ (by decide)) _ _⟩
  · exact ⟨_, rfl, SrstKept.ret (State.logEvent_srstKept (s.accept .setLanes a b) _) _ _⟩

end commands

/-- Only a command that runs the reset sequence, or a raw write of its offset, can write SRST_CTRL (R34). -/
theorem exec_srstKept_of_not_reset (i : Instr) (s : State) :
    (∃ a b, i = .softReset a b ∨ i = .softResetAll a b ∨ i = .phySoftReset a b ∨ i = .coreInit a b
      ∨ i = .coreDeinit a b ∨ (i = .regWrite a b ∧ s.cfg.regAt a = some .srstCtrl))
    ∨ ∃ t, exec i s = .next t ∧ SrstKept s t := by
  have accepted (op : Op) (a b : Word) : SrstKept s (s.accept op a b) := rfl
  cases i with
  | softReset a b => exact .inl ⟨a, b, .inl rfl⟩
  | softResetAll a b => exact .inl ⟨a, b, .inr (.inl rfl)⟩
  | phySoftReset a b => exact .inl ⟨a, b, .inr (.inr (.inl rfl))⟩
  | coreInit a b => exact .inl ⟨a, b, .inr (.inr (.inr (.inl rfl)))⟩
  | coreDeinit a b => exact .inl ⟨a, b, .inr (.inr (.inr (.inr (.inl rfl))))⟩
  | regWrite a b =>
    by_cases off : s.cfg.regAt a = some .srstCtrl
    · exact .inl ⟨a, b, .inr (.inr (.inr (.inr (.inr ⟨rfl, off⟩))))⟩
    · exact .inr (execRegWrite_srstKept a b s off)
  | regRead a b => exact .inr (execRegRead_srstKept a b s)
  | intrEn a b => exact .inr ⟨_, rfl, ((accepted _ a b).trans (State.intrEnSeq_srst _)).ret _ _⟩
  | intrDis a b => exact .inr ⟨_, rfl, ((accepted _ a b).trans (State.intrDisSeq_srst _)).ret _ _⟩
  | globalIntrEn a b => exact .inr ⟨_, rfl, ((accepted _ a b).trans (State.globalIntrEnSeq_srst _)).ret _ _⟩
  | globalIntrDis a b => exact .inr ⟨_, rfl, ((accepted _ a b).trans (State.globalIntrDisSeq_srst _)).ret _ _⟩
  | globalIntrClear a b =>
    have cleared := (accepted .globalIntrClear a b).trans (State.memWrite_srst_ne _ .ists Word.ones (by decide))
    exact .inr ⟨_, rfl, (cleared.trans (State.memWrite_srst_ne _ _ _ (by decide))).ret _ _⟩
  | typecAck a b => exact .inr ⟨_, rfl, ((accepted _ a b).trans (State.typecAckSeq_srst _)).ret _ _⟩
  | auxReset a b => exact .inr ⟨_, rfl, ((accepted _ a b).trans (State.auxResetSeq_srst _)).ret _ _⟩
  | checkCoreId a b =>
    have read := (accepted .checkCoreId a b).trans (State.readT_srstKept _ .id)
    exact .inr ⟨_, rfl, (read.ret _ _).ite (read.trans (State.raiseError_srstKept _ _ _ _))⟩
  | setLanesPower a b => exact .inr ⟨_, rfl, ((accepted _ a b).trans (State.setLanesPowerSeq_srst _)).ret _ _⟩
  | getLanes a b => exact .inr ⟨_, rfl, ((accepted _ a b).trans (State.readT_srstKept _ _)).ret _ _⟩
  | setLanes a b => exact .inr (execSetLanes_srstKept a b s)
  | setRate a b =>
    have checked := (accepted .setRate a b).ite (p := validRate s.cfg.map a = true)
      ((accepted .setRate a b).trans (State.logEvent_srstKept _ .invalidRate))
    exact .inr ⟨_, rfl, (checked.trans (State.rmw_srst_ne _ _ _ (by decide))).ret _ _⟩
  | getRate a b => exact .inr ⟨_, rfl, ((accepted _ a b).trans (State.readT_srstKept _ _)).ret _ _⟩
  | waitBusy a b =>
    have start := accepted .waitBusy a b
    exact .inr ⟨_, rfl, (start.ret _ _).ite (start.trans (State.waitBusySeq_srstKept _))⟩
  | setPreEmphasis a b => exact .inr ⟨_, rfl, (accepted _ a b).trans (State.setLevel_srst _ _)⟩
  | setVswing a b => exact .inr ⟨_, rfl, (accepted _ a b).trans (State.setLevel_srst _ _)⟩
  | setPattern a b =>
    exact .inr ⟨_, rfl, ((accepted _ a b).trans (State.rmw_srst_ne _ _ _ (by decide))).ret _ _⟩
  | enableXmit a b =>
    have selected := (accepted .enableXmit a b).trans (State.selectLanes_srst _ s.cfg.map.xmitEn)
    exact .inr ⟨_, rfl, (selected.trans (State.rmwT_srst_ne _ _ _ (by decide))).ret _ _⟩
  | rateToBw a b => exact .inr ⟨_, rfl, (accepted _ a b).trans (State.translated_srstKept _ _)⟩
  | bwToRate a b => exact .inr ⟨_, rfl, (accepted _ a b).trans (State.translated_srstKept _ _)⟩

/-- Settles O57: a command outside the list keeps SRST_CTRL, against the change. -/
theorem onlyResetCommandsChangeSrstCtrl : Obligations.OnlyResetCommandsChangeSrstCtrl := by
  intro i s t h changed
  obtain listed | ⟨u, hu, kept⟩ := exec_srstKept_of_not_reset i s
  · exact listed
  · rw [hu] at h
    injection h with h
    exact absurd (h ▸ kept) changed

end Sys2Proof.Machine

/-! PROOFS: what a write does to every bit of its register, and the one command that writes the companion PHY
interface. -/

namespace Sys2Proof.Machine

/-! ### A write of a register, bit by bit (R73) -/

/-- The identity registers hold their configured words, so a store leaves them (R30 to R32). -/
theorem State.storeCore_coreWord_const (s : State) {r : CoreReg} (v : Word)
    (hr : r = .verNumber ∨ r = .verType ∨ r = .id) : (s.storeCore r v).coreWord r = s.coreWord r := by
  obtain rfl | rfl | rfl := hr <;> simp [State.coreWord]

/-- Of a register other than the identity registers and ISTS a write leaves exactly the RO-hw bits (R73). -/
theorem RegMap.deafMask_eq_roHwMask (m : RegMap) {r : CoreReg} (hr : stored r) (hi : r ≠ .ists) :
    m.deafMask r = m.roHwMask r := by
  obtain ⟨number, type, id⟩ := hr
  cases r <;> first | rfl | contradiction

/-- A write of ISTS clears the events written 1, and leaves every bit that is no event (R79, log 9). -/
theorem RegMap.written_ists_bitAt (m : RegMap) (old v : Word) (i : BitPos) :
    bitAt (m.written .ists old v) i = if bitAt (m.w1cMask .ists) i then bitAt old i && !bitAt v i else bitAt old i := by
  have deaf : (m.deafMask .ists).getLsbD i = !(m.w1cMask .ists).getLsbD i := by
    simp [RegMap.deafMask, RegMap.w1cMask]
  rw [bitAt, RegMap.written_getLsbD _ _ _ _ _ i.isLt, deaf]
  cases event : (m.w1cMask .ists).getLsbD i <;> simp [bitAt, event, -BitVec.getLsbD_eq_getElem]

/-- A write of a stored register other than ISTS, by the access kind of each bit (R29, R73). -/
theorem RegMap.written_bitAt (m : RegMap) {r : CoreReg} (hr : stored r) (hi : r ≠ .ists) (old v : Word) (i : BitPos) :
    bitAt (m.written r old v) i =
      if bitAt (m.roHwMask r) i then bitAt old i
      else if bitAt (m.w1cMask r) i then bitAt old i && !bitAt v i
      else bitAt v i := by
  rw [bitAt, RegMap.written_getLsbD _ _ _ _ _ i.isLt, RegMap.deafMask_eq_roHwMask m hr hi]
  rfl

/-- Settles O14: the identity registers are configuration, ISTS has its own deaf bits, and every other register is
written by the access kind of each bit. -/
theorem writeActsBitByBit : Obligations.WriteActsBitByBit := by
  intro s r v
  refine ⟨fun i => ?_, fun q hq => s.storeCore_regKept r q v hq⟩
  by_cases const : r = .verNumber ∨ r = .verType ∨ r = .id
  · simp only [if_pos const, s.storeCore_coreWord_const v const]
  have hr : stored r := by simpa [stored, not_or] using const
  simp only [if_neg const, s.storeCore_written r v hr]
  by_cases hi : r = .ists
  · subst hi
    have noRoHw : bitAt (s.cfg.map.roHwMask .ists) i = false := by simp [bitAt, RegMap.roHwMask]
    by_cases event : bitAt (s.cfg.map.w1cMask .ists) i <;> simp [RegMap.written_ists_bitAt, noRoHw, event]
  · by_cases roHw : bitAt (s.cfg.map.roHwMask r) i
    · simp [RegMap.written_bitAt _ hr hi, roHw]
    · by_cases event : bitAt (s.cfg.map.w1cMask r) i <;> simp [RegMap.written_bitAt _ hr hi, roHw, event, hi]

/-! ### The writes of the companion PHY interface along a command (R70, R191) -/

/-- The writes of the companion PHY interface in the trace of `s`, oldest first (R70). -/
def State.phycrWrites (s : State) : List (Space × Word × Word) :=
  (writesOf s.trace).filter fun w => w.1 = .phycr

/-- Entries added to the trace without adding to its companion PHY writes hold no such write. -/
theorem State.no_phycr_write_of_phycrWrites_eq {s t : State} {new : List Event} (trace : t.trace = s.trace ++ new)
    (same : t.phycrWrites = s.phycrWrites) (off v : Word) : Event.memWrite .phycr off v ∉ new := by
  intro mem
  have core : (writesOf new).filter (fun w => w.1 = Space.phycr) = [] := by
    simpa [State.phycrWrites, trace, writesOf] using same
  have written : (Space.phycr, off, v) ∈ writesOf new := List.mem_filterMap.2 ⟨_, mem, rfl⟩
  exact absurd (List.filter_eq_nil_iff.1 core _ written) (by simp)

/-- Entries without such a write add none. -/
theorem State.phycrWrites_of_trace {s t : State} {new : List Event} (trace : t.trace = s.trace ++ new)
    (core : (writesOf new).filter (fun w => w.1 = Space.phycr) = []) : t.phycrWrites = s.phycrWrites := by
  rw [State.phycrWrites, State.phycrWrites, trace, writesOf, List.filterMap_append, List.filter_append]
  exact (congrArg _ core).trans (List.append_nil _)

section phycr
variable (s : State)

/-! #### Updates of single registers, micro-steps, idioms -/

@[simp] theorem State.withB_phycrWrites (v : Word) : (s.withB v).phycrWrites = s.phycrWrites := rfl
@[simp] theorem State.withM_phycrWrites (v : Word) : (s.withM v).phycrWrites = s.phycrWrites := rfl
@[simp] theorem State.withDeadline_phycrWrites (d : Nat) : (s.withDeadline d).phycrWrites = s.phycrWrites := rfl
@[simp] theorem State.accept_phycrWrites (op : Op) (a b : Word) : (s.accept op a b).phycrWrites = s.phycrWrites := rfl

/-- A read that keeps its value in a register (R72). -/
theorem State.memRead_phycrWrites (r : CoreReg) {keep : State → Word → State}
    (hk : ∀ x v, (keep x v).trace = x.trace) : (s.memRead r keep).phycrWrites = s.phycrWrites :=
  State.phycrWrites_of_trace (new := [readEv s r (s.envMove.coreWord r)]) (by simp [State.memRead, hk, readEv]) rfl
@[simp] theorem State.readT_phycrWrites (r : CoreReg) : (s.readT r).phycrWrites = s.phycrWrites :=
  s.memRead_phycrWrites r fun _ _ => rfl
@[simp] theorem State.memWrite_phycrWrites (r : CoreReg) (v : Word) : (s.memWrite r v).phycrWrites = s.phycrWrites :=
  State.phycrWrites_of_trace (s.memWrite_trace r v) rfl
@[simp] theorem State.wait_phycrWrites (d : Nat) : (s.wait d).phycrWrites = s.phycrWrites :=
  State.phycrWrites_of_trace (s.wait_trace d) rfl
@[simp] theorem State.logEvent_phycrWrites (id : LogId) : (s.logEvent id).phycrWrites = s.phycrWrites :=
  State.phycrWrites_of_trace (s.logEvent_trace id) rfl
@[simp] theorem State.callSecure_phycrWrites : s.callSecure.phycrWrites = s.phycrWrites :=
  State.phycrWrites_of_trace s.callSecure_trace rfl
@[simp] theorem State.ret_phycrWrites (st : Status) (v : Word) : (s.ret st v).phycrWrites = s.phycrWrites :=
  State.phycrWrites_of_trace (s.ret_trace st v) rfl
@[simp] theorem State.raiseError_phycrWrites (id : LogId) (st : Status) (v : Word) :
    (s.raiseError id st v).phycrWrites = s.phycrWrites := State.phycrWrites_of_trace (s.raiseError_trace id st v) rfl

@[simp] theorem State.rmw_phycrWrites (r : CoreReg) (f : Word → Word) : (s.rmw r f).phycrWrites = s.phycrWrites :=
  State.phycrWrites_of_trace (s.rmw_trace r f) rfl
@[simp] theorem State.rmwT_phycrWrites (r : CoreReg) (f : Word → Word) : (s.rmwT r f).phycrWrites = s.phycrWrites :=
  State.phycrWrites_of_trace (s.rmwT_trace r f) rfl
@[simp] theorem State.selectLanes_phycrWrites (k : PerLane BitPos) :
    (s.selectLanes k).phycrWrites = s.phycrWrites := by
  simp only [State.selectLanes, State.withM_phycrWrites]
  split
  · rfl
  · exact s.logEvent_phycrWrites _

/-- A nested call writes the interface only if its body does (R23). -/
@[simp] theorem State.callOp_phycrWrites (op : Op) (a b : Word) (body : State → State) :
    (s.callOp op a b body).phycrWrites = (body (s.pushFrame op a b)).phycrWrites := by
  simp [State.phycrWrites]
@[simp] theorem State.pushFrame_phycrWrites (op : Op) (a b : Word) :
    (s.pushFrame op a b).phycrWrites = s.phycrWrites := rfl

/-! #### The micro-sequences -/

@[simp] theorem State.intrEnSeq_phycrWrites : s.intrEnSeq.phycrWrites = s.phycrWrites := s.rmw_phycrWrites _ _
@[simp] theorem State.intrDisSeq_phycrWrites : s.intrDisSeq.phycrWrites = s.phycrWrites := s.rmw_phycrWrites _ _
@[simp] theorem State.erratumStage_phycrWrites : s.erratumStage.phycrWrites = s.phycrWrites := by
  unfold State.erratumStage
  split <;> simp
@[simp] theorem State.cpStage_phycrWrites (f : Word → Word) : (s.cpStage f).phycrWrites = s.phycrWrites := by
  unfold State.cpStage
  split <;> simp
@[simp] theorem State.globalIntrEnSeq_phycrWrites : s.globalIntrEnSeq.phycrWrites = s.phycrWrites := by
  simp [State.globalIntrEnSeq]
@[simp] theorem State.globalIntrDisSeq_phycrWrites : s.globalIntrDisSeq.phycrWrites = s.phycrWrites := by
  simp [State.globalIntrDisSeq]

/-- Without a true operand SET_LANES_POWER leaves out the calibration kick (R190, R191). -/
theorem State.setLanesPowerSeq_phycrWrites (down : s.xA = 0#32) : s.setLanesPowerSeq.phycrWrites = s.phycrWrites := by
  obtain ⟨_, trace, -⟩ := s.setLanesPowerSeq_spec
  rw [if_neg (not_not_intro down)] at trace
  exact State.phycrWrites_of_trace trace rfl

theorem State.waitBusySeq_phycrWrites : s.waitBusySeq.phycrWrites = s.phycrWrites := by
  let selected := s.selectLanes s.cfg.map.busy
  let start := selected.withDeadline (selected.now + selected.cfg.tBusyDeadline)
  obtain ⟨_, _, _, polled⟩ := State.pollBusy_spec start.pc (start.cfg.tBusyDeadline + 1) start (Nat.succ_pos _)
  have untouched : s.waitBusySeq.phycrWrites = start.phycrWrites :=
    State.phycrWrites_of_trace polled.tr (congrArg _ polled.w)
  simpa [start, selected] using untouched

@[simp] theorem State.setLevel_phycrWrites (fields : PerLane Field) :
    (s.setLevel fields).phycrWrites = s.phycrWrites := by
  simp only [State.setLevel]
  split
  · simp
  · split <;> simp
@[simp] theorem State.translated_phycrWrites (found : Option Word) :
    (s.translated found).phycrWrites = s.phycrWrites := by
  cases found with
  | some v => exact s.ret_phycrWrites _ _
  | none => exact s.raiseError_phycrWrites _ _ _

@[simp] theorem State.softResetSeq_phycrWrites : s.softResetSeq.phycrWrites = s.phycrWrites := by
  obtain ⟨_, _, trace, -⟩ := s.softResetSeq_spec
  exact State.phycrWrites_of_trace trace rfl
@[simp] theorem State.softResetAllSeq_phycrWrites : s.softResetAllSeq.phycrWrites = s.phycrWrites := by
  simp [State.softResetAllSeq]
@[simp] theorem State.phySoftResetSeq_phycrWrites : s.phySoftResetSeq.phycrWrites = s.phycrWrites := by
  simp [State.phySoftResetSeq]
@[simp] theorem State.typecAckSeq_phycrWrites : s.typecAckSeq.phycrWrites = s.phycrWrites := s.rmwT_phycrWrites _ _
@[simp] theorem State.auxResetSeq_phycrWrites : s.auxResetSeq.phycrWrites = s.phycrWrites := by
  simp [State.auxResetSeq]
@[simp] theorem State.phyWidthInit_phycrWrites : s.phyWidthInit.phycrWrites = s.phycrWrites := s.rmwT_phycrWrites _ _

/-- CORE_INIT powers the lanes down (R176 stage 3), which kicks no calibration. -/
@[simp] theorem State.coreInitSeq_phycrWrites : s.coreInitSeq.phycrWrites = s.phycrWrites := by
  have number (x : State) : (x.memRead .verNumber State.captureNumber).phycrWrites = x.phycrWrites :=
    x.memRead_phycrWrites _ fun _ _ => rfl
  have type (x : State) : (x.memRead .verType State.captureType).phycrWrites = x.phycrWrites :=
    x.memRead_phycrWrites _ fun _ _ => rfl
  have powered (x : State) :
      (x.pushFrame .setLanesPower 0#32 0#32).setLanesPowerSeq.phycrWrites = x.phycrWrites :=
    State.setLanesPowerSeq_phycrWrites _ rfl
  simp [State.coreInitSeq, powered, number, type]
@[simp] theorem State.coreDeinitSeq_phycrWrites : s.coreDeinitSeq.phycrWrites = s.phycrWrites := by
  simp [State.coreDeinitSeq]

/-! #### The commands -/

variable (a b : Word)

theorem execRegRead_phycrWrites : ∃ t, execRegRead a b s = .next t ∧ t.phycrWrites = s.phycrWrites := by
  simp only [execRegRead]
  split
  · exact ⟨_, rfl, by simp⟩
  · exact ⟨_, rfl, by simp [State.illegalCommand]⟩

theorem execRegWrite_phycrWrites : ∃ t, execRegWrite a b s = .next t ∧ t.phycrWrites = s.phycrWrites := by
  simp only [execRegWrite]
  split
  · exact ⟨_, rfl, by simp⟩
  · exact ⟨_, rfl, by simp [State.illegalCommand]⟩

theorem execSetLanes_phycrWrites : ∃ t, execSetLanes a b s = .next t ∧ t.phycrWrites = s.phycrWrites := by
  simp only [execSetLanes]
  split <;> exact ⟨_, rfl, by simp⟩

theorem execSetRate_phycrWrites : ∃ t, execSetRate a b s = .next t ∧ t.phycrWrites = s.phycrWrites := by
  refine ⟨_, rfl, ?_⟩
  simp only [State.ret_phycrWrites, State.rmw_phycrWrites]
  split <;> simp

theorem execCheckCoreId_phycrWrites : ∃ t, execCheckCoreId a b s = .next t ∧ t.phycrWrites = s.phycrWrites := by
  refine ⟨_, rfl, ?_⟩
  split <;> simp

theorem execWaitBusy_phycrWrites : ∃ t, execWaitBusy a b s = .next t ∧ t.phycrWrites = s.phycrWrites := by
  refine ⟨_, rfl, ?_⟩
  split
  · simp
  · simp [State.waitBusySeq_phycrWrites]

end phycr

/-- No command but a power-up of the lanes writes the companion PHY interface (R70, R191). -/
theorem exec_phycrWrites (i : Instr) (s : State) (down : ∀ a b, i = .setLanesPower a b → a = 0#32) :
    ∃ t, exec i s = .next t ∧ t.phycrWrites = s.phycrWrites := by
  cases i with
  | regRead a b => exact execRegRead_phycrWrites s a b
  | regWrite a b => exact execRegWrite_phycrWrites s a b
  | setLanes a b => exact execSetLanes_phycrWrites s a b
  | setRate a b => exact execSetRate_phycrWrites s a b
  | checkCoreId a b => exact execCheckCoreId_phycrWrites s a b
  | waitBusy a b => exact execWaitBusy_phycrWrites s a b
  | setLanesPower a b =>
    have off : (s.accept .setLanesPower a b).xA = 0#32 := down a b rfl
    exact ⟨_, rfl, by simp [State.setLanesPowerSeq_phycrWrites _ off]⟩
  | intrEn | intrDis | globalIntrEn | globalIntrDis | globalIntrClear | softReset | softResetAll | phySoftReset
  | typecAck | auxReset | coreInit | coreDeinit | getLanes | getRate | setPreEmphasis | setVswing | setPattern
  | enableXmit | rateToBw | bwToRate => exact ⟨_, rfl, by simp⟩

/-- Settles O55: the entries a command adds are those of `exec_advances`, and its writes of the interface are none. -/
theorem onlyLanePowerUpReachesPhycr : Obligations.OnlyLanePowerUpReachesPhycr := by
  intro i s t h down
  obtain ⟨u, hu, same⟩ := exec_phycrWrites i s down
  obtain ⟨w, hw, advances⟩ := exec_advances i s
  obtain rfl : u = t := by simpa [hu] using h
  obtain rfl : w = u := by simpa [hw] using hu
  obtain ⟨new, trace⟩ := advances.trace
  exact ⟨new, trace.symm, State.no_phycr_write_of_phycrWrites_eq trace.symm same⟩

end Sys2Proof.Machine

/-! PROOFS: decoder and encoder agree, the step runs what the decoder reads, an unknown op is refused, and the two
convenience resets are SOFT_RESET with their mask. -/

namespace Sys2Proof

/-! ### The command word and the opcode map (R100, R102) -/

/-- A command word is its three fields, no bit over (R100). -/
theorem cmdWord_fields (w : CmdWord) : cmdWord w.op w.a w.b = w := by
  have operands : w.a ++ w.b = w.extractLsb' 0 64 := BitVec.extractLsb'_append_extractLsb'_eq_extractLsb' rfl
  have whole : w.op ++ w.extractLsb' 0 64 = w.extractLsb' 0 72 :=
    BitVec.extractLsb'_append_extractLsb'_eq_extractLsb' rfl
  rw [cmdWord, operands, whole, BitVec.extractLsb'_eq_self]

/-- The encoder writes the op that the opcode map gives the command (R102). -/
theorem encode_of_mem_opcodeTable {op : BitVec 8} {mk : Word → Word → Instr} (row : (op, mk) ∈ opcodeTable)
    (a b : Word) : encode (mk a b) = cmdWord op a b := by
  have rows : ∀ p ∈ opcodeTable, encode (p.2 a b) = cmdWord p.1 a b := by
    simp [opcodeTable, encode]
  exact rows _ row

/-- The opcodes are the 27 of R102. -/
theorem opcodeTable_ops : opcodeTable.map (fun p => p.1.toNat) =
    [0x00, 0x01, 0x10, 0x11, 0x12, 0x13, 0x14, 0x20, 0x21, 0x22, 0x23, 0x24, 0x25, 0x26, 0x27,
      0x30, 0x31, 0x32, 0x33, 0x34, 0x35, 0x36, 0x37, 0x38, 0x39, 0x40, 0x41] := rfl

/-! ### The decoder -/

/-- A word decodes by a row of the opcode map for its op, to that row's command with the word's operands (R101). -/
theorem decode_eq_ok {w : CmdWord} {i : Instr} (h : decode w = .ok i) :
    ∃ mk, (w.op, mk) ∈ opcodeTable ∧ i = mk w.a w.b := by
  unfold decode at h
  split at h
  case h_1 mk found =>
    obtain ⟨before, after, rows, -⟩ := List.lookup_eq_some_iff.mp found
    injection h with h
    exact ⟨mk, by simp [rows], h.symm⟩
  case h_2 => cases h

/-- A word is refused when the opcode map has no row for its op (R125). -/
theorem decode_error_iff (w : CmdWord) : (∃ e, decode w = .error e) ↔ opcodeTable.lookup w.op = none := by
  cases found : opcodeTable.lookup w.op <;> simp [decode, found]

/-- The word built from an op of the map and two operands decodes to that command (R100, R102). -/
theorem decode_cmdWord {op : BitVec 8} {mk : Word → Word → Instr} (row : opcodeTable.lookup op = some mk)
    (a b : Word) : decode (cmdWord op a b) = .ok (mk a b) := by
  simp [decode, Laws.cmdWord_op, Laws.cmdWord_a, Laws.cmdWord_b, row]

/-- Settles O1: the encoder writes an op that the map looks up to the same constructor. -/
theorem decodeOfEncode : Obligations.DecodeOfEncode := by
  intro i
  cases i <;> exact decode_cmdWord (by rfl) _ _

/-- Settles O2: the row that decoded the word encodes to its op, and the word is its fields. -/
theorem encodeOfDecode : Obligations.EncodeOfDecode := by
  intro w i h
  obtain ⟨mk, row, rfl⟩ := decode_eq_ok h
  rw [encode_of_mem_opcodeTable row, cmdWord_fields]

/-- Settles O3: no row for the op means an op outside the map's list of opcodes. -/
theorem decodeRefusesExactlyUnknownOps : Obligations.DecodeRefusesExactlyUnknownOps := by
  intro w
  have differ (p : BitVec 8 × (Word → Word → Instr)) : (w.op != p.1) = true ↔ ¬ p.1.toNat = w.op.toNat := by
    rw [bne_iff_ne, ne_comm, ne_eq, BitVec.toNat_inj]
  rw [decode_error_iff, List.lookup_eq_none_iff, ← opcodeTable_ops]
  simp only [differ, List.mem_map, not_exists, not_and]

/-- Settles O4: each word is the encoding of its command. -/
theorem specWordsDecode : Obligations.SpecWordsDecode := by
  have decodes {w : CmdWord} {i : Instr} (h : encode i = w) : decode w = .ok i := h ▸ decodeOfEncode i
  exact ⟨decodes rfl, decodes rfl, decodes rfl, decodes rfl, decodes rfl, decodes rfl⟩

end Sys2Proof

namespace Sys2Proof.Machine

/-! ### A presented command word at an attached idle block -/

/-- Settles O5: the step performs the command at the head of the queue, and the host port runs what it decodes to. -/
theorem stepRunsDecodedCommand : Obligations.StepRunsDecodedCommand := by
  intro s w rest i queue attached idle decoded
  rw [step_of_host_cons queue]
  exact State.hostCommand_decoded (s := s.withHost rest) idle attached decoded

/-- Settles O6: the step is the refusal of `illegalCommand`, made with the queue moved on by one. -/
theorem unknownOpIsRefusedAndGoesOn : Obligations.UnknownOpIsRefusedAndGoesOn := by
  intro s w rest e queue attached idle unknown
  obtain ⟨trace, status, xR, xA, xB, -, -, pc, kept, aux, file⟩ := (s.withHost rest).illegalCommand_spec
  obtain ⟨attached', -, cfg, host, -⟩ := kept.hk
  have refuses : step s = .next (s.withHost rest).illegalCommand :=
    (step_of_host_cons queue).trans (State.hostCommand_unknown idle attached unknown)
  exact ⟨_, refuses, trace, status, xR, pc, host, xA, xB, cfg, attached'.trans attached,
    ⟨kept.ck, kept.dl, aux⟩, file⟩

/-! ### What a micro-sequence does not read: pc, the operands and the return stack

`withCaller` replaces the registers that a `do` saves and restores (R23). The environment does the same whatever they
hold, and SOFT_RESET does the same whatever the return stack holds. -/

/-- The state with another pc, other operands and another return stack. -/
def State.withCaller (s : State) (f : Frame) (stack : List Frame) : State :=
  { s with pc := f.pc, xA := f.xA, xB := f.xB, retStack := stack }

/-- The state with another return stack. -/
def State.withStack (s : State) (stack : List Frame) : State := s.withCaller ⟨s.pc, s.xA, s.xB⟩ stack

section caller
variable (s : State) (f : Frame) (stack : List Frame)

/-- Registers replaced by what they already hold. -/
theorem State.withCaller_self {s : State} {f : Frame} {stack : List Frame} (pc : s.pc = f.pc) (a : s.xA = f.xA)
    (b : s.xB = f.xB) (saved : s.retStack = stack) : s.withCaller f stack = s := by
  rw [State.withCaller, ← pc, ← a, ← b, ← saved]

theorem State.latchHpd_withCaller (was : Bool) :
    (s.withCaller f stack).latchHpd was = (s.latchHpd was).withCaller f stack := by
  have active : (s.withCaller f stack).hpdActive = s.hpdActive := rfl
  unfold State.latchHpd
  rw [active]
  split <;> rfl

theorem State.hwStep_withCaller (h : HwStep) :
    (s.withCaller f stack).hwStep h = (s.hwStep h).withCaller f stack := by
  unfold State.hwStep
  cases h.resetFill with
  | none => exact congrArg State.sampled ((s.hwDriven h).latchHpd_withCaller f stack _)
  | some fill => exact congrArg State.sampled (((s.resetFilled fill).hwDriven h).latchHpd_withCaller f stack _)

theorem State.hwSteps_withCaller (hs : List HwStep) :
    (s.withCaller f stack).hwSteps hs = (s.hwSteps hs).withCaller f stack := by
  induction hs generalizing s with
  | nil => rfl
  | cons h hs ih => rw [State.hwSteps, State.hwStep_withCaller, ih, ← State.hwSteps]

theorem State.envMove_withCaller : (s.withCaller f stack).envMove = s.envMove.withCaller f stack :=
  (s.timeStep s.nextEnv).hwSteps_withCaller f stack s.nextEnv.hw

/-- The end of a command sets pc and leaves the operands and the return stack (R24). -/
theorem State.ret_withCaller (st : Status) (v : Word) :
    (s.withCaller f stack).ret st v = (s.ret st v).withCaller ⟨.idle, f.xA, f.xB⟩ stack := by
  rw [State.ret, State.envMove_withCaller]
  rfl

end caller

/-! #### The return stack alone: the whole micro-sequence of SOFT_RESET ignores it -/

section stack
variable (s : State) (stack : List Frame)

theorem State.envMove_withStack : (s.withStack stack).envMove = s.envMove.withStack stack := by
  simp [State.withStack, State.envMove_withCaller]

theorem State.latchHpd_withStack (was : Bool) :
    (s.withStack stack).latchHpd was = (s.latchHpd was).withStack stack := by
  simp [State.withStack, State.latchHpd_withCaller]

theorem State.storeCore_withStack (r : CoreReg) (v : Word) :
    (s.withStack stack).storeCore r v = (s.storeCore r v).withStack stack :=
  (s.withStored r (s.cfg.map.written r (s.coreWord r) v) (s.settleAfter r)).latchHpd_withStack stack s.hpdActive

theorem State.readT_withStack (r : CoreReg) : (s.withStack stack).readT r = (s.readT r).withStack stack := by
  rw [State.readT, State.memRead, State.envMove_withStack]
  rfl

theorem State.memWrite_withStack (r : CoreReg) (v : Word) :
    (s.withStack stack).memWrite r v = (s.memWrite r v).withStack stack := by
  rw [State.memWrite, State.envMove_withStack, State.storeCore_withStack]
  rfl

theorem State.rmw_withStack (r : CoreReg) (f : Word → Word) :
    (s.withStack stack).rmw r f = (s.rmw r f).withStack stack := by
  rw [State.rmw, State.readT_withStack]
  exact (s.readT r).memWrite_withStack stack r _

theorem State.wait_withStack (d : Nat) : (s.withStack stack).wait d = (s.wait d).withStack stack := by
  rw [State.wait, State.envMove_withStack]
  rfl

theorem State.srstAssert_eq : s.srstAssert =
    (s.withM (s.xA &&& s.cfg.map.srstValid)).rmw .srstCtrl fun t => t ||| (s.xA &&& s.cfg.map.srstValid) := rfl

theorem State.srstAssert_withStack : (s.withStack stack).srstAssert = s.srstAssert.withStack stack := by
  rw [State.srstAssert_eq, State.srstAssert_eq]
  exact (s.withM (s.xA &&& s.cfg.map.srstValid)).rmw_withStack stack .srstCtrl _

theorem State.srstDeassert_withStack : (s.withStack stack).srstDeassert = s.srstDeassert.withStack stack :=
  s.rmw_withStack stack .srstCtrl _

theorem State.softResetSeq_withStack : (s.withStack stack).softResetSeq = s.softResetSeq.withStack stack := by
  rw [State.softResetSeq, State.srstAssert_withStack, State.wait_withStack, State.srstDeassert_withStack]
  rfl

end stack

/-! ### SOFT_RESET as a nested call -/

/-- A nested SOFT_RESET does what an accepted one does, and gives the caller its pc and operands back (R23). -/
theorem State.callOp_softResetSeq (s : State) (op : Op) (a b m : Word) :
    (s.accept op a b).callOp .softReset m 0#32 State.softResetSeq =
      (s.accept .softReset m 0#32).softResetSeq.withCaller ⟨.running op 1, a, b⟩ s.retStack := by
  let direct := s.accept .softReset m 0#32
  have pushed : (s.accept op a b).pushFrame .softReset m 0#32
      = direct.withStack (⟨.running op 0, a, b⟩ :: s.retStack) := rfl
  rw [State.callOp_eq _ _ _ _ _ (State.softResetSeq_retStack _), pushed, State.softResetSeq_withStack]
  rfl

/-- A command that is one nested SOFT_RESET ends as SOFT_RESET with that mask does, but for the operands (R127). -/
theorem State.softReset_of_nested (s : State) (op : Op) (a b m : Word) :
    let t := ((s.accept op a b).callOp .softReset m 0#32 State.softResetSeq).ret .ok 0#32
    exec (.softReset m 0#32) s = .next { t with xA := m, xB := 0#32 } ∧ t.xA = a ∧ t.xB = b ∧ t.status = .ok := by
  let direct := (s.accept .softReset m 0#32).softResetSeq.ret .ok 0#32
  have restored : direct.withCaller ⟨.idle, m, 0#32⟩ s.retStack = direct :=
    State.withCaller_self (by simp [direct]) (by simp [direct]) (by simp [direct]) (by simp [direct])
  have ends : direct.status = .ok := State.ret_status _ _ _
  rw [State.callOp_softResetSeq, State.ret_withCaller]
  exact ⟨congrArg Host.Outcome.next restored.symm, rfl, rfl, ends⟩

/-- Settles O27: both commands are one nested SOFT_RESET, which reads nothing of the frame that the call saved. -/
theorem convenienceResetsAreSoftReset : Obligations.ConvenienceResetsAreSoftReset := by
  intro s a b
  exact ⟨⟨_, rfl, s.softReset_of_nested .softResetAll a b s.cfg.map.srstValid⟩,
    ⟨_, rfl, s.softReset_of_nested .phySoftReset a b s.cfg.map.srstPhy⟩⟩

end Sys2Proof.Machine

/-! PROOFS: a raw register access at an offset of the map is one read or one write of the register it names. -/

namespace Sys2Proof.Machine

/-! ### A raw access at an offset of the map (R141, R142) -/

theorem exec_regRead_of_regAt {s : State} {a : Word} {r : CoreReg} (b : Word) (named : s.cfg.regAt a = some r) :
    exec (.regRead a b) s =
      .next (((s.accept .regRead a b).readT r).ret .ok ((s.accept .regRead a b).envMove.coreWord r)) := by
  simp [exec, execRegRead, named]

theorem exec_regWrite_of_regAt {s : State} {a : Word} {r : CoreReg} (b : Word) (named : s.cfg.regAt a = some r) :
    exec (.regWrite a b) s = .next (((s.accept .regWrite a b).memWrite r b).ret .ok 0#32) := by
  simp [exec, execRegWrite, named]

/-- Settles O15: the word in x[T] is the register's after the first gap, and neither the read nor `ret` stores. -/
theorem regReadReturnsRegister : Obligations.RegReadReturnsRegister := by
  intro s a b r named
  obtain ⟨-, offset⟩ := Cfg.regAt_some s.cfg a r named
  let accepted := s.accept .regRead a b
  let v := accepted.envMove.coreWord r
  let t := (accepted.readT r).ret .ok v
  have run : RunKept s t :=
    ((s.accept_runKept .regRead a b).trans (accepted.readT_runKept r)).trans (State.ret_runKept _ .ok v)
  have trace : t.trace = s.trace ++ [.memRead .core a v, .ret .ok v] := by simp [t, v, accepted, offset]
  have frame : CommandFrame s t a b := ⟨run.hk, State.ret_pc _ _ _,
    by simp [t, accepted], by simp [t, accepted], run.now⟩
  have passive : PassiveKept s t := ⟨run.ck, run.dl, by simp [t, accepted]⟩
  refine ⟨t, v, exec_regRead_of_regAt b named, trace, State.ret_status _ _ _, State.ret_xR _ _ _,
    by simp [t, v], by simp [t, accepted], frame, passive, fun noReset => ?_⟩
  have held : (accepted.readT r).held = 0#32 := (accepted.readT_held r).trans noReset
  exact ⟨accepted.envMove_regKept noReset r,
    (accepted.readT_fileKept [] r noReset).trans (accepted.readT_cfg r) (State.ret_fileKept _ [] .ok v held)⟩

/-! ### The word that a raw write leaves in its register (R73) -/

/-- Every RO-hw bit of a register is deaf to writes (R29, R73). -/
theorem RegMap.roHwMask_false_of_deafMask_false {m : RegMap} {r : CoreReg} {i : Nat}
    (hears : (m.deafMask r).getLsbD i = false) : (m.roHwMask r).getLsbD i = false := by
  cases r with
  | verNumber | verType | id | ists => exact BitVec.getLsbD_zero
  | _ => exact hears

/-- HW changes no stored bit of a register without a reset: it drives RO-hw bits and fires W1C bits (R56, R73). -/
theorem KeptWord.storedBits_eq {m : RegMap} {r : CoreReg} {old new : Word} (kept : KeptWord m r old new) :
    new &&& storedBits m r = old &&& storedBits m r := by
  rw [and_mask_eq_iff]
  intro i hi isStored
  obtain ⟨hears, noEvent⟩ : (m.deafMask r).getLsbD i = false ∧ (m.w1cMask r).getLsbD i = false := by
    simpa [storedBits, hi, -BitVec.getLsbD_eq_getElem] using isStored
  exact ((keptWord_iff m r old new).mp kept i hi).1 (RegMap.roHwMask_false_of_deafMask_false hears) noEvent

/-- An identity register has neither stored bits nor W1C bits (R30 to R32). -/
theorem storedBits_w1cMask_of_not_stored (m : RegMap) {r : CoreReg} (const : ¬ stored r) :
    storedBits m r = 0#32 ∧ m.w1cMask r = 0#32 := by
  have identity : r = .verNumber ∨ r = .verType ∨ r = .id := by
    simpa [stored, not_or, or_iff_not_imp_left] using const
  obtain rfl | rfl | rfl := identity <;>
    simp [storedBits, RegMap.deafMask, RegMap.w1cMask, Word.ones]

/-- A W1C bit that is set stays set when a word with 0 there is written (R73). -/
theorem RegMap.written_w1c_of_zero {m : RegMap} {r : CoreReg} {old v : Word} {i : Nat} (hi : i < 32)
    (event : (m.w1cMask r).getLsbD i = true) (wasSet : old.getLsbD i = true) (zero : v.getLsbD i = false) :
    (m.written r old v).getLsbD i = true := by
  rw [RegMap.written_getLsbD _ _ _ _ _ hi]
  split
  · exact wasSet
  · rw [wasSet, zero]; rfl

/-- No bit of `mask` that is set in `old` and 0 in `v` is clear in `new`. -/
theorem and_not_and_not_eq_zero_iff (old mask v new : Word) :
    old &&& mask &&& ~~~v &&& ~~~new = 0#32 ↔
      ∀ i, i < 32 → mask.getLsbD i = true → old.getLsbD i = true → v.getLsbD i = false → new.getLsbD i = true := by
  constructor
  · intro none_lost i hi masked wasSet zero
    have bit := congrArg (fun w : Word => w.getLsbD i) none_lost
    simpa [hi, masked, wasSet, zero, -BitVec.getLsbD_eq_getElem] using bit
  · intro keeps
    apply BitVec.eq_of_getLsbD_eq
    intro i hi
    by_contra lost
    obtain ⟨wasSet, masked, zero, clear⟩ :
        old.getLsbD i = true ∧ mask.getLsbD i = true ∧ v.getLsbD i = false ∧ new.getLsbD i = false := by
      simpa [hi, -BitVec.getLsbD_eq_getElem] using lost
    exact Bool.false_ne_true (clear.symm.trans (keeps i hi masked wasSet zero))

section write
variable (s : State) (r : CoreReg) (v : Word)

/-- A write holds a valid reset bit only if it writes one into SRST_CTRL (R34, R277). -/
theorem State.memWrite_held_eq_zero (noReset : s.held = 0#32)
    (noAssert : r = .srstCtrl → v &&& s.cfg.map.srstValid = 0#32) : (s.memWrite r v).held = 0#32 := by
  by_cases hr : r = .srstCtrl
  · subst hr; exact (s.memWrite_held_srst v).trans (noAssert rfl)
  · exact (s.memWrite_held r v hr).trans noReset

/-- The stored bits of the word written are in the register when the write ends the command (R73, R142). -/
theorem State.memWriteRet_storedBits (st : Status) (x : Word) (held : (s.memWrite r v).held = 0#32) :
    ((s.memWrite r v).ret st x).coreWord r &&& storedBits s.cfg.map r = v &&& storedBits s.cfg.map r := by
  by_cases hr : stored r
  · have kept := State.ret_regKept _ st x held r
    rw [RegKept, State.memWrite_cfg] at kept
    exact kept.storedBits_eq.trans (s.memWrite_storedBits r v hr)
  · simp [storedBits_w1cMask_of_not_stored _ hr]

/-- A W1C bit that was set stays set through a write of 0 to it: HW clears none in either gap (R56, R73). -/
theorem State.memWriteRet_w1c (st : Status) (x : Word) (noReset : s.held = 0#32)
    (held : (s.memWrite r v).held = 0#32) :
    s.coreWord r &&& s.cfg.map.w1cMask r &&& ~~~v &&& ~~~((s.memWrite r v).ret st x).coreWord r = 0#32 := by
  by_cases hr : stored r
  · rw [and_not_and_not_eq_zero_iff]
    intro i hi event wasSet zero
    have before := (keptWord_iff _ _ _ _).mp (s.envMove_regKept noReset r) i hi
    have after := (keptWord_iff _ _ _ _).mp (State.ret_regKept _ st x held r) i hi
    rw [State.memWrite_cfg, State.memWrite_written _ _ _ hr] at after
    exact after.2 event (RegMap.written_w1c_of_zero hi event (before.2 event wasSet) zero)
  · simp [storedBits_w1cMask_of_not_stored _ hr]

/-- The frame of a write and its `ret`: only the register written may take other words (R73). -/
theorem State.memWriteRet_fileKept (st : Status) (x : Word) (noReset : s.held = 0#32)
    (held : (s.memWrite r v).held = 0#32) : FileKept s ((s.memWrite r v).ret st x) [r] :=
  (s.memWrite_fileKept [r] r v noReset (by simp)).trans (s.memWrite_cfg r v) (State.ret_fileKept _ [r] st x held)

/-- A write to AUX_CTRL restarts the settle window at the time of the write, and no other write moves it (R53). -/
theorem State.memWriteRet_auxReadyAt (st : Status) (x : Word) :
    let t := (s.memWrite r v).ret st x
    if r = .auxCtrl then s.now + s.cfg.tAuxSettle ≤ t.auxReadyAt ∧ t.auxReadyAt ≤ t.now + s.cfg.tAuxSettle
    else t.auxReadyAt = s.auxReadyAt := by
  intro t
  have window : t.auxReadyAt = if r = .auxCtrl then s.envMove.now + s.cfg.tAuxSettle else s.auxReadyAt := by simp [t]
  split_ifs at window ⊢
  · have gap : s.now ≤ s.envMove.now := s.le_envMove_now
    have done : s.envMove.now ≤ t.now := (s.memWrite_now r v).symm.trans_le (State.le_ret_now _ st x)
    omega
  · exact window

end write

/-- Settles O16: after the write only the gap before `ret` is left, and unless the write asserted a reset HW then
keeps what was stored. -/
theorem regWriteStoresOperand : Obligations.RegWriteStoresOperand := by
  intro s a b r named
  obtain ⟨-, offset⟩ := Cfg.regAt_some s.cfg a r named
  let accepted := s.accept .regWrite a b
  let t := (accepted.memWrite r b).ret .ok 0#32
  have run : RunKept s t :=
    ((s.accept_runKept .regWrite a b).trans (accepted.memWrite_runKept r b)).trans (State.ret_runKept _ .ok 0#32)
  have trace : t.trace = s.trace ++ [.memWrite .core a b, .ret .ok 0#32] := by simp [t, accepted, offset]
  have frame : CommandFrame s t a b := ⟨run.hk, State.ret_pc _ _ _,
    by simp [t, accepted], by simp [t, accepted], run.now⟩
  have srst : r = .srstCtrl → t.core.srstCtrl = b := by rintro rfl; simp [t]
  refine ⟨t, exec_regWrite_of_regAt b named, trace, State.ret_status _ _ _, State.ret_xR _ _ _, by simp [t, accepted],
    by simp [t, accepted], frame, run.ck, run.dl, accepted.memWriteRet_auxReadyAt r b .ok 0#32, srst, ?_⟩
  intro noReset noAssert
  have held : (accepted.memWrite r b).held = 0#32 := accepted.memWrite_held_eq_zero r b noReset noAssert
  exact ⟨accepted.memWriteRet_fileKept r b .ok 0#32 noReset held, accepted.memWriteRet_storedBits r b .ok 0#32 held,
    accepted.memWriteRet_w1c r b .ok 0#32 noReset held⟩

end Sys2Proof.Machine

/-! PROOFS: the interrupt mask controller. A stage of it is a read-modify-write of a mask register, alone or nested in
a call; `MaskRun` says what a run of stages does, and each command is assembled from it. -/

namespace Sys2Proof

/-! ### Masks set and cleared, and single bits read -/

/-- Bits set and then cleared are those cleared. -/
theorem or_and_not (w m : Word) : (w ||| m) &&& ~~~m = w &&& ~~~m := by
  apply BitVec.eq_of_getLsbD_eq
  intro i hi
  cases h : m.getLsbD i <;> simp [h, -BitVec.getLsbD_eq_getElem]

/-- What is cleared is clear. -/
theorem and_not_and_self (w m : Word) : w &&& ~~~m &&& m = 0#32 := by
  rw [BitVec.and_assoc]; simp

/-- Clearing a bit of a mask and then the mask is clearing the mask. -/
theorem and_not_and_not {h m : Word} (inside : h &&& m = h) (w : Word) : w &&& ~~~h &&& ~~~m = w &&& ~~~m := by
  rw [BitVec.and_assoc, ← BitVec.not_or]
  conv_lhs => rw [← inside]
  congr 2
  apply BitVec.eq_of_getLsbD_eq
  intro i hi
  cases hm : m.getLsbD i <;> simp [hm, -BitVec.getLsbD_eq_getElem]

@[simp] theorem bitAt_zero (p : BitPos) : bitAt 0#32 p = false := BitVec.getLsbD_zero
@[simp] theorem bitAt_or (v w : Word) (p : BitPos) : bitAt (v ||| w) p = (bitAt v p || bitAt w p) :=
  BitVec.getLsbD_or
@[simp] theorem bitAt_and (v w : Word) (p : BitPos) : bitAt (v &&& w) p = (bitAt v p && bitAt w p) :=
  BitVec.getLsbD_and
@[simp] theorem bitAt_not (w : Word) (p : BitPos) : bitAt (~~~w) p = !bitAt w p := by
  rw [bitAt, BitVec.getLsbD_not, decide_eq_true p.isLt, Bool.true_and]; rfl
@[simp] theorem bitAt_bitMask_self (p : BitPos) : bitAt (bitMask p) p = true := by
  rw [bitAt, bitMask_getLsbD p p p.isLt, decide_eq_true rfl]

/-- A bit of a mask is clear in a word from which the mask is cleared. -/
theorem bitAt_and_not_of_mem {m : Word} {p : BitPos} (mem : bitAt m p = true) (w : Word) :
    bitAt (w &&& ~~~m) p = false := by
  simp [mem]

/-! ### The hot-plug-detect source, and the write that clears a status register -/

/-- The hot-plug-detect source is one of the sources (R117 e). -/
theorem Cfg.ienHpd_inside {c : Cfg} (wf : c.wf = true) :
    bitMask c.map.ienHpd &&& c.map.ienAll = bitMask c.map.ienHpd := by
  simpa [RegMap.wfIen] using Cfg.wf_ien wf

/-- The hot-plug-detect source is a source, bit by bit (R117 e). -/
theorem Cfg.ienHpd_source {c : Cfg} (wf : c.wf = true) : bitAt c.map.ienAll c.map.ienHpd = true := by
  simpa using congrArg (bitAt · c.map.ienHpd) (Cfg.ienHpd_inside wf)

/-- All-ones written to a status register clears its W1C bits and leaves the others (R73, R79, log 9, log 10). -/
theorem RegMap.written_ones (m : RegMap) {r : CoreReg} (status : r = .ists ∨ r = .hpdsts) (old : Word) :
    m.written r old Word.ones = old &&& ~~~m.w1cMask r := by
  have deaf : m.deafMask r = ~~~m.w1cMask r := by obtain rfl | rfl := status <;> rfl
  apply BitVec.eq_of_getLsbD_eq
  intro i hi
  have ones : Word.ones.getLsbD i = true := BitVec.getLsbD_allOnes.trans (decide_eq_true hi)
  rw [RegMap.written_getLsbD _ _ _ _ _ hi, deaf]
  cases event : (m.w1cMask r).getLsbD i <;> simp [event, hi, ones, -BitVec.getLsbD_eq_getElem]

end Sys2Proof

namespace Sys2Proof.Machine

/-! ### INTR_EN and INTR_DIS (R150, R151) -/

/-- A command that is one read-modify-write of IEN. -/
theorem State.rmwIenCommand_spec (s : State) (op : Op) (a b : Word) (f : Word → Word) :
    let t := ((s.accept op a b).rmw .ien f).ret .ok 0#32
    ∃ v, t.trace = s.trace ++ [readEv s .ien v, writeEv s .ien (f v), .ret .ok 0#32]
      ∧ t.status = .ok ∧ t.xR = 0#32 ∧ t.xT = v ∧ t.xM = s.xM ∧ CommandFrame s t a b ∧ PassiveKept s t
      ∧ (s.noReset → v = s.core.ien ∧ t.core.ien = f s.core.ien ∧ FileKept s t [.ien]) := by
  let accepted := s.accept op a b
  obtain ⟨trace, status, xR, xT, xM, xA, xB, pc, kept, aux, file⟩ :=
    accepted.rmwRet_spec .ien f (by decide) (by decide)
  have run := (s.accept_runKept op a b).trans kept
  refine ⟨_, trace, status, xR, xT, xM, ⟨run.hk, pc, xA, xB, run.now⟩, ⟨run.ck, run.dl, aux⟩, fun noReset => ?_⟩
  obtain ⟨fileKept, -⟩ := file noReset
  exact ⟨accepted.envMove_whole .ien noReset rfl,
    accepted.rmwRet_whole .ien f .ok 0#32 noReset (by simp [stored]) rfl (by decide), fileKept⟩

/-- Settles O18: INTR_EN is the read-modify-write of IEN that ORs. -/
theorem intrEnOrsIntoIen : Obligations.IntrEnOrsIntoIen := by
  intro s a b
  obtain ⟨v, spec⟩ := s.rmwIenCommand_spec .intrEn a b (· ||| a)
  exact ⟨_, v, rfl, spec⟩

/-- Settles O19: INTR_DIS is the read-modify-write of IEN that clears. -/
theorem intrDisClearsInIen : Obligations.IntrDisClearsInIen := by
  intro s a b
  obtain ⟨v, spec⟩ := s.rmwIenCommand_spec .intrDis a b (· &&& ~~~a)
  exact ⟨_, v, rfl, spec⟩

/-! ### A run of stages of the mask controller -/

/-- The registers that the mask controller writes (R150 to R153). -/
def maskRegs : List CoreReg := [.ien, .wrapIntMask, .hpdIen, .cpGpioIntMask]

theorem stored_of_mem_maskRegs {r : CoreReg} (hr : r ∈ maskRegs) : stored r := by
  revert hr; cases r <;> simp [maskRegs, stored]
theorem ne_of_mem_maskRegs {r : CoreReg} (hr : r ∈ maskRegs) : r ≠ .srstCtrl ∧ r ≠ .auxCtrl := by
  revert hr; cases r <;> simp [maskRegs]

/-- The function of register words that changes register `r` alone. -/
def onlyAt (r : CoreReg) (f : Word → Word) (q : CoreReg) (w : Word) : Word := if q = r then f w else w

/-- From `s` to `t` stages of the mask controller ran. They added `new` to the trace and gave the caller its operands
back. With no reset held they wrote only mask registers, and a register `r` that HW neither drives nor fires went from
its word `w` to `g r w`. -/
structure MaskRun (s t : State) (new : List Event) (g : CoreReg → Word → Word) : Prop where
  trace : t.trace = s.trace ++ new
  run : RunKept s t
  xA : t.xA = s.xA
  xB : t.xB = s.xB
  xM : t.xM = s.xM
  auxReadyAt : t.auxReadyAt = s.auxReadyAt
  held : t.held = s.held
  file : s.noReset → FileKept s t maskRegs
  words : s.noReset → ∀ r, wholeRw r = true → t.coreWord r = g r (s.coreWord r)

theorem MaskRun.refl (s : State) : MaskRun s s [] fun _ w => w :=
  ⟨(List.append_nil _).symm, RunKept.refl s, rfl, rfl, rfl, rfl, rfl, fun _ => FileKept.refl s _, fun _ _ _ => rfl⟩

/-- A run by other names for what it added and for what it made of the registers. -/
theorem MaskRun.congr {s t : State} {new new' : List Event} {g g' : CoreReg → Word → Word} (h : MaskRun s t new g)
    (events : new' = new) (words : ∀ r w, g' r w = g r w) : MaskRun s t new' g' := by
  obtain rfl : g' = g := funext fun r => funext (words r)
  exact events ▸ h

/-- With no reset held a read-modify-write acts on its own register, and leaves every other that HW neither
drives nor fires. -/
theorem State.rmw_coreWord_onlyAt (s : State) {r q : CoreReg} (f : Word → Word) (noReset : s.held = 0#32)
    (hr : stored r) (hq : wholeRw q = true) : (s.rmw r f).coreWord q = onlyAt r f q (s.coreWord q) := by
  by_cases same : q = r
  · subst same
    rw [onlyAt, if_pos rfl, s.rmw_whole q f noReset hr hq]
  · rw [onlyAt, if_neg same, (s.rmw_regKept r q f noReset same).eq_of_wholeRw hq]

section stages
variable {s t u : State} {new new' : List Event} {g g' : CoreReg → Word → Word}

theorem MaskRun.cfg (h : MaskRun s t new g) : t.cfg = s.cfg := h.run.cfg

theorem MaskRun.noReset (h : MaskRun s t new g) (noReset : s.noReset) : t.noReset := h.held.trans noReset

theorem MaskRun.trans (h : MaskRun s t new g) (h' : MaskRun t u new' g') :
    MaskRun s u (new ++ new') fun r w => g' r (g r w) where
  trace := by rw [h'.trace, h.trace, List.append_assoc]
  run := h.run.trans h'.run
  xA := h'.xA.trans h.xA
  xB := h'.xB.trans h.xB
  xM := h'.xM.trans h.xM
  auxReadyAt := h'.auxReadyAt.trans h.auxReadyAt
  held := h'.held.trans h.held
  file noReset := (h.file noReset).trans h.cfg (h'.file (h.noReset noReset))
  words noReset r hr := by rw [h'.words (h.noReset noReset) r hr, h.words noReset r hr]

/-- One more stage: a read-modify-write of a mask register (R80). -/
theorem MaskRun.rmw (h : MaskRun s t new g) {r : CoreReg} (hr : r ∈ maskRegs) (f : Word → Word) :
    ∃ v, MaskRun s (t.rmw r f) (new ++ [readEv s r v, writeEv s r (f v)]) fun q w => onlyAt r f q (g q w) := by
  obtain ⟨notSrst, notAux⟩ := ne_of_mem_maskRegs hr
  have stage : MaskRun t (t.rmw r f) [readEv s r (t.envMove.coreWord r), writeEv s r (f (t.envMove.coreWord r))]
      (onlyAt r f) :=
    { trace := by rw [State.rmw_trace, h.cfg]; rfl
      run := t.rmw_runKept r f
      xA := t.rmw_xA r f
      xB := t.rmw_xB r f
      xM := t.rmw_xM r f
      auxReadyAt := t.rmw_auxReadyAt_ne r f notAux
      held := t.rmw_held r f notSrst
      file := fun noReset => t.rmw_fileKept maskRegs r f noReset hr
      words := fun noReset q hq => t.rmw_coreWord_onlyAt f noReset (stored_of_mem_maskRegs hr) hq }
  exact ⟨_, h.trans stage⟩

/-- One more stage: the call of the secure collaborator (R158). -/
theorem MaskRun.callSecure (h : MaskRun s t new g) : MaskRun s t.callSecure (new ++ [.callSecure]) g := by
  have stage : MaskRun t t.callSecure [.callSecure] fun _ w => w :=
    { trace := t.callSecure_trace
      run := t.callSecure_runKept
      xA := t.callSecure_xA
      xB := t.callSecure_xB
      xM := t.callSecure_xM
      auxReadyAt := t.callSecure_auxReadyAt
      held := t.callSecure_held
      file := fun noReset => t.callSecure_fileKept maskRegs noReset
      words := fun noReset r hr => (t.callSecure_regKept noReset r).eq_of_wholeRw hr }
  exact h.trans stage

/-- A nested call is its body between a saved and a restored frame (R23). -/
theorem State.callOp_maskRun {op : Op} {a b : Word} {body : State → State}
    (h : MaskRun (t.pushFrame op a b) (body (t.pushFrame op a b)) new g) :
    MaskRun t (t.callOp op a b body) new g := by
  obtain ⟨run, xA, xB, -⟩ := t.callOp_spec op a b body h.run
  refine ⟨?_, run, xA, xB, ?_, ?_, ?_, fun noReset => ?_, fun noReset r hr => ?_⟩
  · rw [State.callOp_trace]; exact h.trace
  · rw [State.callOp_xM]; exact h.xM
  · rw [State.callOp_auxReadyAt]; exact h.auxReadyAt
  · rw [State.callOp_held]; exact h.held
  · obtain ⟨regs, phycr⟩ := h.file noReset
    refine ⟨fun r hr => ?_, by rw [State.callOp_phycr4]; exact phycr⟩
    rw [RegKept, State.callOp_coreWord]
    exact regs r hr
  · rw [State.callOp_coreWord]
    exact h.words noReset r hr

/-- One more stage: a nested call of a read-modify-write of a mask register, which its operand decides. -/
theorem MaskRun.callRmw (h : MaskRun s t new g) (op : Op) (a b : Word) {body : State → State} {r : CoreReg}
    (hr : r ∈ maskRegs) (f : Word → Word) (isRmw : body (t.pushFrame op a b) = (t.pushFrame op a b).rmw r f) :
    ∃ v, MaskRun s (t.callOp op a b body) (new ++ [readEv s r v, writeEv s r (f v)])
      fun q w => onlyAt r f q (g q w) := by
  obtain ⟨v, stage⟩ := (MaskRun.refl (t.pushFrame op a b)).rmw hr f
  rw [← isRmw] at stage
  have called := h.trans (State.callOp_maskRun stage)
  simp only [readEv, writeEv, State.pushFrame_cfg, h.cfg, List.nil_append] at called
  exact ⟨v, called⟩

/-- One more stage: the erratum's, which the configuration may leave out (R152 stage 2). -/
theorem MaskRun.erratumStage (h : MaskRun s t new g) :
    ∃ v, MaskRun s t.erratumStage
      (new ++ if s.cfg.quirk.hpdErratum then
        [readEv s .ien v, writeEv s .ien (v &&& ~~~bitMask s.cfg.map.ienHpd)] else [])
      fun q w => if s.cfg.quirk.hpdErratum then onlyAt .ien (· &&& ~~~bitMask s.cfg.map.ienHpd) q (g q w)
        else g q w := by
  unfold State.erratumStage
  rw [h.cfg]
  cases erratum : s.cfg.quirk.hpdErratum with
  | false => exact ⟨0#32, by simpa using h⟩
  | true =>
    simp only [if_true]
    exact h.callRmw .intrDis (bitMask s.cfg.map.ienHpd) 0#32 (by simp [maskRegs])
      (· &&& ~~~bitMask s.cfg.map.ienHpd) rfl

/-- One more stage: that of content protection, which the configuration may leave out (R152, R153, R158). -/
theorem MaskRun.cpStage (h : MaskRun s t new g) (f : Word → Word) :
    ∃ v, MaskRun s (t.cpStage f)
      (new ++ if s.cfg.cpEnabled then
        [.callSecure, readEv s .cpGpioIntMask v, writeEv s .cpGpioIntMask (f v)] else [])
      fun q w => if s.cfg.cpEnabled then onlyAt .cpGpioIntMask f q (g q w) else g q w := by
  unfold State.cpStage
  rw [h.cfg]
  cases protection : s.cfg.cpEnabled with
  | false => exact ⟨0#32, by simpa using h⟩
  | true =>
    obtain ⟨v, stage⟩ := h.callSecure.rmw (r := .cpGpioIntMask) (by simp [maskRegs]) f
    exact ⟨v, by simpa using stage⟩

/-- The end of a command whose stages ran from its acceptance (R11, R24). -/
theorem MaskRun.ret {op : Op} {a b : Word} (h : MaskRun (s.accept op a b) t new g) :
    let u := t.ret .ok 0#32
    u.trace = s.trace ++ (new ++ [.ret .ok 0#32]) ∧ u.status = .ok ∧ u.xR = 0#32 ∧ u.xM = s.xM
      ∧ CommandFrame s u a b ∧ PassiveKept s u ∧ u.held = s.held
      ∧ (s.noReset → FileKept s u maskRegs ∧ ∀ r, wholeRw r = true → u.coreWord r = g r (s.coreWord r)) := by
  have run := ((s.accept_runKept op a b).trans h.run).trans (t.ret_runKept .ok 0#32)
  refine ⟨?_, t.ret_status _ _, t.ret_xR _ _, (t.ret_xM _ _).trans h.xM, ?_, ?_, (t.ret_held _ _).trans h.held,
    fun noReset => ⟨?_, fun r hr => ?_⟩⟩
  · rw [State.ret_trace, h.trace, List.append_assoc]; rfl
  · exact ⟨run.hk, t.ret_pc _ _, (t.ret_xA _ _).trans h.xA, (t.ret_xB _ _).trans h.xB, run.now⟩
  · exact ⟨run.ck, run.dl, (t.ret_auxReadyAt _ _).trans h.auxReadyAt⟩
  · have stages : FileKept s t maskRegs := h.file noReset
    exact stages.trans h.cfg (t.ret_fileKept maskRegs .ok 0#32 (h.noReset noReset))
  · rw [t.ret_whole r .ok 0#32 (h.noReset noReset) hr]
    exact h.words noReset r hr

end stages

/-! ### The stages of the two global commands (R152, R153) -/

/-- What GLOBAL_INTR_EN makes of the word of a register that HW neither drives nor fires (R152). -/
def globalEnabled (c : Cfg) : CoreReg → Word → Word
  | .ien, w => if c.quirk.hpdErratum then (w ||| c.map.ienAll) &&& ~~~bitMask c.map.ienHpd else w ||| c.map.ienAll
  | .wrapIntMask, w => wrapUnmask c.map w
  | .hpdIen, w => w ||| c.map.hpdIenAll
  | .cpGpioIntMask, w => if c.cpEnabled then cpMask c.map w else w
  | _, w => w

/-- What GLOBAL_INTR_DIS makes of it (R153). -/
def globalDisabled (c : Cfg) : CoreReg → Word → Word
  | .ien, w => w &&& ~~~c.map.ienAll
  | .wrapIntMask, w => wrapMask c.map w
  | .hpdIen, w => w &&& ~~~c.map.hpdIenAll
  | .cpGpioIntMask, w => if c.cpEnabled then cpUnmask c.map w else w
  | _, w => w

/-- The five stages of GLOBAL_INTR_EN, two of which the configuration may leave out (R152, R159). -/
theorem State.globalIntrEnSeq_maskRun (s : State) :
    ∃ v1 v2 v3 v4 v5, MaskRun s s.globalIntrEnSeq
      ([readEv s .ien v1, writeEv s .ien (v1 ||| s.cfg.map.ienAll)]
        ++ (if s.cfg.quirk.hpdErratum then
              [readEv s .ien v2, writeEv s .ien (v2 &&& ~~~bitMask s.cfg.map.ienHpd)] else [])
        ++ [readEv s .wrapIntMask v3, writeEv s .wrapIntMask (wrapUnmask s.cfg.map v3),
            readEv s .hpdIen v4, writeEv s .hpdIen (v4 ||| s.cfg.map.hpdIenAll)]
        ++ if s.cfg.cpEnabled then
              [.callSecure, readEv s .cpGpioIntMask v5, writeEv s .cpGpioIntMask (cpMask s.cfg.map v5)] else [])
      (globalEnabled s.cfg) := by
  obtain ⟨v1, h1⟩ := (MaskRun.refl s).callRmw .intrEn s.cfg.map.ienAll 0#32 (body := State.intrEnSeq)
    (by simp [maskRegs]) (· ||| s.cfg.map.ienAll) rfl
  obtain ⟨v2, h2⟩ := h1.erratumStage
  obtain ⟨v3, h3⟩ := h2.rmw (r := .wrapIntMask) (by simp [maskRegs]) (wrapUnmask s.cfg.map)
  obtain ⟨v4, h4⟩ := h3.rmw (r := .hpdIen) (by simp [maskRegs]) (· ||| s.cfg.map.hpdIenAll)
  obtain ⟨v5, h5⟩ := h4.cpStage (cpMask s.cfg.map)
  exact ⟨v1, v2, v3, v4, v5, h5.congr (by simp) fun r w => by cases r <;> simp [globalEnabled, onlyAt]⟩

/-- The four stages of GLOBAL_INTR_DIS, the last of which the configuration may leave out (R153, R159). -/
theorem State.globalIntrDisSeq_maskRun (s : State) :
    ∃ v1 v3 v4 v5, MaskRun s s.globalIntrDisSeq
      ([readEv s .ien v1, writeEv s .ien (v1 &&& ~~~s.cfg.map.ienAll),
          readEv s .wrapIntMask v3, writeEv s .wrapIntMask (wrapMask s.cfg.map v3),
          readEv s .hpdIen v4, writeEv s .hpdIen (v4 &&& ~~~s.cfg.map.hpdIenAll)]
        ++ if s.cfg.cpEnabled then
              [.callSecure, readEv s .cpGpioIntMask v5, writeEv s .cpGpioIntMask (cpUnmask s.cfg.map v5)] else [])
      (globalDisabled s.cfg) := by
  obtain ⟨v1, h1⟩ := (MaskRun.refl s).callRmw .intrDis s.cfg.map.ienAll 0#32 (body := State.intrDisSeq)
    (by simp [maskRegs]) (· &&& ~~~s.cfg.map.ienAll) rfl
  obtain ⟨v3, h3⟩ := h1.rmw (r := .wrapIntMask) (by simp [maskRegs]) (wrapMask s.cfg.map)
  obtain ⟨v4, h4⟩ := h3.rmw (r := .hpdIen) (by simp [maskRegs]) (· &&& ~~~s.cfg.map.hpdIenAll)
  obtain ⟨v5, h5⟩ := h4.cpStage (cpUnmask s.cfg.map)
  exact ⟨v1, v3, v4, v5, h5.congr (by simp) fun r w => by cases r <;> simp [globalDisabled, onlyAt]⟩

theorem exec_globalIntrEn (s : State) (a b : Word) :
    exec (.globalIntrEn a b) s = .next ((s.accept .globalIntrEn a b).globalIntrEnSeq.ret .ok 0#32) := rfl
theorem exec_globalIntrDis (s : State) (a b : Word) :
    exec (.globalIntrDis a b) s = .next ((s.accept .globalIntrDis a b).globalIntrDisSeq.ret .ok 0#32) := rfl

/-- Settles O21: the four stages, then `ret`. -/
theorem globalIntrDisStagesInOrder : Obligations.GlobalIntrDisStagesInOrder := by
  intro s a b
  obtain ⟨v1, v3, v4, v5, stages⟩ := (s.accept .globalIntrDis a b).globalIntrDisSeq_maskRun
  obtain ⟨trace, status, xR, xM, frame, passive, -, registers⟩ := stages.ret
  refine ⟨_, v1, v3, v4, v5, exec_globalIntrDis s a b, trace, status, xR, xM, frame, passive, fun noReset => ?_⟩
  obtain ⟨file, words⟩ := registers noReset
  exact ⟨words .ien rfl, words .wrapIntMask rfl, words .hpdIen rfl, words .cpGpioIntMask rfl, file⟩

/-! ### The masks that the two global commands leave -/

/-- With no reset held GLOBAL_INTR_EN leaves these words in the registers that HW neither drives nor fires. -/
theorem exec_globalIntrEn_words {s t : State} {a b : Word} (h : exec (.globalIntrEn a b) s = .next t)
    (noReset : s.noReset) :
    t.cfg = s.cfg ∧ t.noReset ∧ ∀ r, wholeRw r = true → t.coreWord r = globalEnabled s.cfg r (s.coreWord r) := by
  obtain ⟨_, _, _, _, _, stages⟩ := (s.accept .globalIntrEn a b).globalIntrEnSeq_maskRun
  obtain ⟨-, -, -, -, ⟨⟨-, -, cfg, -⟩, -⟩, -, held, registers⟩ := stages.ret
  obtain ⟨-, words⟩ := registers noReset
  rw [exec_globalIntrEn] at h
  injection h with h
  subst h
  exact ⟨cfg, held.trans noReset, words⟩

/-- With no reset held GLOBAL_INTR_DIS leaves these words in the registers that HW neither drives nor fires. -/
theorem exec_globalIntrDis_words {s t : State} {a b : Word} (h : exec (.globalIntrDis a b) s = .next t)
    (noReset : s.noReset) :
    t.cfg = s.cfg ∧ ∀ r, wholeRw r = true → t.coreWord r = globalDisabled s.cfg r (s.coreWord r) := by
  obtain ⟨_, _, _, _, stages⟩ := (s.accept .globalIntrDis a b).globalIntrDisSeq_maskRun
  obtain ⟨-, -, -, -, ⟨⟨-, -, cfg, -⟩, -⟩, -, -, registers⟩ := stages.ret
  obtain ⟨-, words⟩ := registers noReset
  rw [exec_globalIntrDis] at h
  injection h with h
  subst h
  exact ⟨cfg, words⟩

/-- Unmasking the wrapper and masking it is masking it, in either polarity (R155). -/
theorem wrapMask_wrapUnmask (m : RegMap) (w : Word) : wrapMask m (wrapUnmask m w) = wrapMask m w := by
  unfold wrapMask wrapUnmask
  cases m.wrapSetIsUnmask with
  | true => exact or_and_not w m.wrapIntBits
  | false =>
    apply BitVec.eq_of_getLsbD_eq
    intro i hi
    cases h : m.wrapIntBits.getLsbD i <;> simp [h, hi, -BitVec.getLsbD_eq_getElem]

/-- Settles O22: the erratum's bit is one that the disable clears, and every mask bit set is cleared again. -/
theorem globalEnableDisablePair : Obligations.GlobalEnableDisablePair := by
  intro s t u a b c d wf noReset enable disable
  obtain ⟨cfg, noReset', enabled⟩ := exec_globalIntrEn_words enable noReset
  obtain ⟨-, disabled⟩ := exec_globalIntrDis_words disable noReset'
  have pair (r : CoreReg) (hr : wholeRw r = true) :
      u.coreWord r = globalDisabled s.cfg r (globalEnabled s.cfg r (s.coreWord r)) := by
    rw [disabled r hr, enabled r hr, cfg]
  refine ⟨(pair .ien rfl).trans ?_, (pair .hpdIen rfl).trans (or_and_not _ _),
    (pair .wrapIntMask rfl).trans (wrapMask_wrapUnmask _ _)⟩
  simp only [globalDisabled, globalEnabled]
  split
  · rw [and_not_and_not (Cfg.ienHpd_inside wf), or_and_not]; rfl
  · exact or_and_not _ _

/-! ### The interrupt output under the masks (R242) -/

/-- No enabled source, no output. -/
theorem State.irqOut_eq_false_of_ien {s : State} (disabled : s.core.ien &&& s.cfg.map.ienAll = 0#32) :
    s.irqOut = false := by
  simp [State.irqOut, State.coreActive, BitVec.and_assoc, disabled]

/-- With every sub-event enable cleared no sub-event is active. -/
theorem State.hpdActive_eq_false_of_hpdIen {s : State} {w : Word}
    (cleared : s.core.hpdIen = w &&& ~~~s.cfg.map.hpdIenAll) : s.hpdActive = false := by
  have off (p : BitPos) (mem : bitAt s.cfg.map.hpdIenAll p = true) : bitAt s.core.hpdIen p = false := by
    rw [cleared]; exact bitAt_and_not_of_mem mem w
  simp [State.hpdActive, off s.cfg.map.hpdIenIrq (by simp [RegMap.hpdIenAll]),
    off s.cfg.map.hpdIenHotPlug (by simp [RegMap.hpdIenAll]),
    off s.cfg.map.hpdIenHotUnplug (by simp [RegMap.hpdIenAll])]

/-- Settles O25: the sources in IEN and the enables in HPD_IEN are cleared, whatever HW has set meanwhile. -/
theorem globalDisableQuietsTheOutput : Obligations.GlobalDisableQuietsTheOutput := by
  intro s t a b noReset h
  obtain ⟨cfg, words⟩ := exec_globalIntrDis_words h noReset
  have ien : t.core.ien = s.core.ien &&& ~~~s.cfg.map.ienAll := words .ien rfl
  have hpdIen : t.core.hpdIen = s.core.hpdIen &&& ~~~s.cfg.map.hpdIenAll := words .hpdIen rfl
  rw [← cfg] at ien hpdIen
  refine ⟨State.irqOut_eq_false_of_ien ?_, State.hpdActive_eq_false_of_hpdIen hpdIen⟩
  rw [ien, and_not_and_self]

/-! ### The window of the erratum (R245) -/

/-- A pending and enabled source under an unmasked wrapper shows at the output. -/
theorem State.irqOut_of_pending {s : State} {p : BitPos} (source : bitAt s.cfg.map.ienAll p = true)
    (pending : bitAt s.core.ists p = true) (enabled : bitAt s.core.ien p = true) (opened : s.wrapOpen = true) :
    s.irqOut = true := by
  have active : s.core.ists &&& s.core.ien &&& s.cfg.map.ienAll ≠ 0#32 := by
    intro inactive
    have bit := congrArg (bitAt · p) inactive
    simp [source, pending, enabled] at bit
  simp [State.irqOut, State.coreActive, active, opened]

theorem State.wrapOpen_congr {s t : State} (cfg : t.cfg = s.cfg) (word : t.core.wrapIntMask = s.core.wrapIntMask) :
    t.wrapOpen = s.wrapOpen := by
  simp [State.wrapOpen, cfg, word]

/-- A pending source stays pending through a write to another register: HW clears no W1C bit (R56). -/
theorem RegKept.ists_pending {s t : State} (kept : RegKept s t .ists) {p : BitPos}
    (source : bitAt s.cfg.map.ienAll p = true) (pending : bitAt s.core.ists p = true) :
    bitAt t.core.ists p = true :=
  ((keptWord_iff _ _ _ _).mp kept p p.isLt).2 source pending

/-- Enabling all sources with the wrapper unmasked and one of them pending turns the output on. -/
theorem State.rmw_ien_irqOut {s : State} {p : BitPos} (noReset : s.held = 0#32)
    (source : bitAt s.cfg.map.ienAll p = true) (pending : bitAt s.core.ists p = true) (opened : s.wrapOpen = true) :
    (s.rmw .ien (· ||| s.cfg.map.ienAll)).irqOut = true := by
  let f : Word → Word := (· ||| s.cfg.map.ienAll)
  let t := s.rmw .ien f
  have cfg : t.cfg = s.cfg := s.rmw_cfg .ien f
  have ien : t.core.ien = s.core.ien ||| s.cfg.map.ienAll := s.rmw_whole .ien f noReset (by simp [stored]) rfl
  have wrapper : t.core.wrapIntMask = s.core.wrapIntMask :=
    (s.rmw_regKept .ien .wrapIntMask f noReset (by decide)).eq_of_wholeRw rfl
  have ists := (s.rmw_regKept .ien .ists f noReset (by decide)).ists_pending source pending
  have enabled : bitAt t.core.ien p = true := by rw [ien, bitAt_or, source, Bool.or_true]
  exact State.irqOut_of_pending (s := t) (by rw [cfg]; exact source) ists enabled
    ((State.wrapOpen_congr cfg wrapper).trans opened)

/-- Stage 1 of GLOBAL_INTR_EN records the output on after its write, if a source is pending and the wrapper unmasked. -/
theorem State.callIntrEn_sample (s : State) {p : BitPos} (noReset : s.held = 0#32)
    (source : bitAt s.cfg.map.ienAll p = true) (pending : bitAt s.core.ists p = true) (opened : s.wrapOpen = true) :
    ∃ x ∈ (s.callOp .intrEn s.cfg.map.ienAll 0#32 State.intrEnSeq).lines.drop s.lines.length,
      x.events = s.trace.length + 2 ∧ x.irqOut = true := by
  let called := s.pushFrame .intrEn s.cfg.map.ienAll 0#32
  let f : Word → Word := (· ||| s.cfg.map.ienAll)
  obtain ⟨more, lines⟩ := called.rmw_lines .ien f
  have events : (called.rmw .ien f).trace.length = s.trace.length + 2 := by
    rw [State.rmw_trace, List.length_append]; rfl
  have recorded : (s.callOp .intrEn s.cfg.map.ienAll 0#32 State.intrEnSeq).lines
      = s.lines ++ (more ++ [(called.rmw .ien f).sample]) := by
    rw [State.callOp_lines, ← List.append_assoc]
    exact lines
  refine ⟨(called.rmw .ien f).sample, ?_, events,
    State.rmw_ien_irqOut (s := called) noReset source pending opened⟩
  rw [recorded, List.drop_left]
  simp

/-- What the stages after the first record is added to what the first recorded. -/
theorem State.callIntrEn_lines_isPrefix (s : State) (st : Status) (v : Word) :
    (s.callOp .intrEn s.cfg.map.ienAll 0#32 State.intrEnSeq).lines <+: (s.globalIntrEnSeq.ret st v).lines := by
  let enabled := s.callOp .intrEn s.cfg.map.ienAll 0#32 State.intrEnSeq
  have gated := (enabled.erratumStage_advances.rmw .wrapIntMask (wrapUnmask s.cfg.map)).rmw .hpdIen
    fun t => t ||| s.cfg.map.hpdIenAll
  exact ((gated.trans (State.cpStage_advances _ (cpMask s.cfg.map))).ret st v).lines

/-! ### Gaps without hardware steps -/

theorem HwQuiet.mono {n k : Nat} {s : State} (h : HwQuiet n s) (le : k ≤ n) : HwQuiet k s :=
  ⟨le.trans h.1, fun e he => h.2 e ((List.take_prefix_take_left le).subset he)⟩

/-- A quiet gap leaves the register file. -/
theorem HwQuiet.envMove_core {n : Nat} {s : State} (h : HwQuiet (n + 1) s) : s.envMove.core = s.core := by
  rw [h.head.1]; rfl

/-- A store leaves every other register but ISTS as it was: only ISTS can latch (R73, R242). -/
theorem State.storeCore_coreWord_ne (s : State) {r q : CoreReg} (v : Word) (other : q ≠ r) (hi : q ≠ .ists) :
    (s.storeCore r v).coreWord q = s.coreWord q := by
  rw [State.storeCore, State.latchHpd_core_ne _ _ _ hi, State.withStored_coreWord_ne _ _ _ _ _ other]

/-- The next `n` gaps hold no hardware step, and of all sources only hot-plug detect is pending. -/
structure OnlyHpdPending (n : Nat) (s : State) : Prop where
  quiet : HwQuiet n s
  pending : s.core.ists &&& s.cfg.map.ienAll = bitMask s.cfg.map.ienHpd

section pending
variable {n k : Nat} {s t : State}

theorem OnlyHpdPending.mono (h : OnlyHpdPending n s) (le : k ≤ n) : OnlyHpdPending k s := ⟨h.quiet.mono le, h.pending⟩

/-- A micro-step that adds nothing to the effect of its gap. -/
theorem OnlyHpdPending.gap (h : OnlyHpdPending (n + 1) s) (script : t.envScript = s.envScript.tail)
    (core : t.core = s.envMove.core) (cfg : t.cfg = s.cfg) : OnlyHpdPending n t := by
  refine ⟨h.quiet.head.2 t script, ?_⟩
  rw [core, h.quiet.envMove_core, cfg]
  exact h.pending

/-- A latch adds hot-plug detect, which is pending already (R242). -/
theorem State.latchHpd_pending (s : State) (was : Bool)
    (pending : s.core.ists &&& s.cfg.map.ienAll = bitMask s.cfg.map.ienHpd) :
    (s.latchHpd was).core.ists &&& s.cfg.map.ienAll = bitMask s.cfg.map.ienHpd := by
  unfold State.latchHpd
  split
  · apply BitVec.eq_of_getLsbD_eq
    intro i hi
    rw [← pending]
    simp only [BitVec.getLsbD_and, BitVec.getLsbD_or]
    cases s.core.ists.getLsbD i <;> cases s.cfg.map.ienAll.getLsbD i <;> rfl
  · exact pending

theorem OnlyHpdPending.memWrite (h : OnlyHpdPending (n + 1) s) {r : CoreReg} (hr : r ≠ .ists) (v : Word) :
    OnlyHpdPending n (s.memWrite r v) := by
  let moved := s.envMove
  let written := moved.withStored r (moved.cfg.map.written r (moved.coreWord r) v) (moved.settleAfter r)
  have pending : written.core.ists &&& written.cfg.map.ienAll = bitMask written.cfg.map.ienHpd := by
    have kept : written.core.ists = moved.core.ists := CoreFile.get_set_ne moved.core r .ists _ hr.symm
    rw [kept, show written.cfg = s.cfg from s.envMove_cfg, show moved.core = s.core from h.quiet.envMove_core]
    exact h.pending
  refine ⟨h.quiet.head.2 _ (s.memWrite_envScript r v), ?_⟩
  have latched := written.latchHpd_pending moved.hpdActive pending
  rw [show written.cfg = s.cfg from s.envMove_cfg] at latched
  rw [State.memWrite_cfg]
  exact latched

theorem OnlyHpdPending.rmw (h : OnlyHpdPending (n + 2) s) {r : CoreReg} (hr : r ≠ .ists) (f : Word → Word) :
    OnlyHpdPending n (s.rmw r f) :=
  (h.gap (t := s.readT r) (s.readT_envScript r) (s.readT_core r) (s.readT_cfg r)).memWrite hr _

theorem OnlyHpdPending.callOp {op : Op} {a b : Word} {body : State → State}
    (h : OnlyHpdPending n (body (s.pushFrame op a b))) : OnlyHpdPending n (s.callOp op a b body) := by
  obtain ⟨quiet, pending⟩ := h
  refine ⟨?_, by simpa using pending⟩
  rw [HwQuiet, State.callOp_envScript]
  exact quiet

theorem OnlyHpdPending.erratumStage (h : OnlyHpdPending (n + 2) s) : OnlyHpdPending n s.erratumStage := by
  unfold State.erratumStage
  split
  · have called : OnlyHpdPending (n + 2) (s.pushFrame .intrDis (bitMask s.cfg.map.ienHpd) 0#32) :=
      ⟨h.quiet, h.pending⟩
    exact .callOp (called.rmw (by decide) _)
  · exact h.mono (by omega)

theorem OnlyHpdPending.cpStage (h : OnlyHpdPending (n + 3) s) (f : Word → Word) : OnlyHpdPending n (s.cpStage f) := by
  unfold State.cpStage
  split
  · have called : OnlyHpdPending (n + 2) s.callSecure :=
      h.gap (by simp [State.callSecure, State.envMove_envScript]) s.callSecure_core s.callSecure_cfg
    exact called.rmw (by decide) f
  · exact h.mono (by omega)

/-- The stages of GLOBAL_INTR_EN consume at most eleven gaps. -/
theorem OnlyHpdPending.globalIntrEnSeq (h : OnlyHpdPending (n + 11) s) : OnlyHpdPending n s.globalIntrEnSeq := by
  have called : OnlyHpdPending (n + 11) (s.pushFrame .intrEn s.cfg.map.ienAll 0#32) := ⟨h.quiet, h.pending⟩
  have enabled : OnlyHpdPending (n + 9) (s.callOp .intrEn s.cfg.map.ienAll 0#32 State.intrEnSeq) :=
    .callOp (called.rmw (by decide) _)
  exact ((enabled.erratumStage.rmw (by decide) _).rmw (by decide) _).cpStage _

theorem OnlyHpdPending.ret (h : OnlyHpdPending (n + 1) s) (st : Status) (v : Word) :
    OnlyHpdPending n (s.ret st v) :=
  h.gap (by simp [State.ret, State.envMove_envScript]) (s.ret_core st v) (s.ret_cfg st v)

/-- With hot-plug detect alone pending and disabled the output is off. -/
theorem OnlyHpdPending.irqOut_eq_false (h : OnlyHpdPending n s)
    (disabled : bitMask s.cfg.map.ienHpd &&& s.core.ien = 0#32) : s.irqOut = false := by
  have inactive : s.core.ists &&& s.core.ien &&& s.cfg.map.ienAll = 0#32 := by
    rw [BitVec.and_assoc, BitVec.and_comm s.core.ien, ← BitVec.and_assoc, h.pending, disabled]
  simp [State.irqOut, State.coreActive, inactive]

end pending

/-! ### GLOBAL_INTR_EN -/

/-- `cp_mask` leaves the bit of the CP GPIO source masked, in either polarity (R157). -/
theorem bitAt_cpMask (m : RegMap) (w : Word) : bitAt (cpMask m w) m.cpGpioBit = m.cpSetIsMask := by
  unfold cpMask
  cases m.cpSetIsMask with
  | true => simp
  | false => exact bitAt_and_not_of_mem (bitAt_bitMask_self _) w

/-- With its source masked, or without content protection, the CP line is off (R239, R242). -/
theorem State.cpIrqOut_eq_false {s : State} {w : Word}
    (masked : s.core.cpGpioIntMask = if s.cfg.cpEnabled then cpMask s.cfg.map w else w) : s.cpIrqOut = false := by
  cases protection : s.cfg.cpEnabled with
  | false => simp [State.cpIrqOut, protection]
  | true =>
    rw [protection, if_pos rfl] at masked
    simp [State.cpIrqOut, State.cpMasked, masked, bitAt_cpMask]

/-- Settles O20: the five stages, then `ret`. The first stage records the pulse of R245 when its write enables the
pending hot-plug-detect source; the erratum's stage disables it again, and with HW quiet nothing else is pending. -/
theorem globalIntrEnStagesInOrder : Obligations.GlobalIntrEnStagesInOrder := by
  intro s a b
  let accepted := s.accept .globalIntrEn a b
  obtain ⟨v1, v2, v3, v4, v5, stages⟩ := accepted.globalIntrEnSeq_maskRun
  obtain ⟨trace, status, xR, xM, frame, passive, -, registers⟩ := stages.ret
  let t := accepted.globalIntrEnSeq.ret .ok 0#32
  have cfg : t.cfg = s.cfg := (State.ret_cfg _ _ _).trans stages.cfg
  refine ⟨t, v1, v2, v3, v4, v5, exec_globalIntrEn s a b, trace, status, xR, xM, frame, passive,
    fun noReset => ?_, fun noReset wf erratum opened pending => ⟨?_, fun quiet disabled only => ⟨?_, ?_⟩⟩⟩
  · obtain ⟨file, words⟩ := registers noReset
    have cp := words .cpGpioIntMask rfl
    refine ⟨words .ien rfl, words .wrapIntMask rfl, words .hpdIen rfl, cp, ?_, file⟩
    exact State.cpIrqOut_eq_false (w := s.core.cpGpioIntMask) (by rw [cfg]; exact cp)
  · obtain ⟨x, mem, sample⟩ := accepted.callIntrEn_sample noReset (Cfg.ienHpd_source wf) pending opened
    exact ⟨x, ((accepted.callIntrEn_lines_isPrefix .ok 0#32).drop _).subset mem, sample⟩
  · exact State.irqOut_eq_false_of_ien disabled
  · have start : OnlyHpdPending (1 + 11) accepted := ⟨quiet, only⟩
    refine (start.globalIntrEnSeq.ret .ok 0#32).irqOut_eq_false ?_
    have ien : t.core.ien = (s.core.ien ||| s.cfg.map.ienAll) &&& ~~~bitMask s.cfg.map.ienHpd := by
      obtain ⟨-, words⟩ := registers noReset
      have word : t.core.ien = globalEnabled s.cfg .ien s.core.ien := words .ien rfl
      simpa only [globalEnabled, erratum, if_true] using word
    rw [ien, cfg, BitVec.and_comm, and_not_and_self]

/-! ### GLOBAL_INTR_CLEAR (R154) -/

/-- With every sub-event cleared none is active. -/
theorem State.hpdActive_eq_false_of_hpdsts {s : State} {w : Word}
    (cleared : s.core.hpdsts = w &&& ~~~s.cfg.map.hpdEvtAll) : s.hpdActive = false := by
  have off (p : BitPos) (mem : bitAt s.cfg.map.hpdEvtAll p = true) : bitAt s.core.hpdsts p = false := by
    rw [cleared]; exact bitAt_and_not_of_mem mem w
  simp [State.hpdActive, off s.cfg.map.hpdIrq (by simp [RegMap.hpdEvtAll]),
    off s.cfg.map.hpdHotPlug (by simp [RegMap.hpdEvtAll]), off s.cfg.map.hpdHotUnplug (by simp [RegMap.hpdEvtAll])]

/-- Clearing HPDSTS latches nothing into ISTS (R242). -/
theorem State.storeCore_hpdsts_ones_ists (s : State) :
    (s.storeCore .hpdsts Word.ones).core.ists = s.core.ists := by
  have inactive : (s.withStored .hpdsts (s.cfg.map.written .hpdsts (s.coreWord .hpdsts) Word.ones)
      (s.settleAfter .hpdsts)).hpdActive = false :=
    State.hpdActive_eq_false_of_hpdsts (s.cfg.map.written_ones (.inr rfl) _)
  rw [State.storeCore, State.latchHpd, inactive, Bool.and_false]
  rfl

/-- HW and writes to other registers leave the undefined bits of ISTS (R56, log 9). -/
theorem RegKept.ists_undefined {s t : State} (kept : RegKept s t .ists) :
    t.core.ists &&& ~~~s.cfg.map.ienAll = s.core.ists &&& ~~~s.cfg.map.ienAll := by
  obtain ⟨undefined, -⟩ := kept
  simpa [rwBits, RegMap.roHwMask, RegMap.w1cMask, State.coreWord, CoreFile.get] using undefined

section clear
variable (s : State)

/-- The two writes of GLOBAL_INTR_CLEAR before its `ret`. -/
def State.clearStatus : State := (s.memWrite .ists Word.ones).memWrite .hpdsts Word.ones

theorem State.clearStatus_runKept : RunKept s s.clearStatus :=
  (s.memWrite_runKept .ists Word.ones).trans (State.memWrite_runKept _ .hpdsts Word.ones)

theorem State.clearStatus_held : s.clearStatus.held = s.held :=
  (State.memWrite_held _ _ _ (by decide)).trans (s.memWrite_held _ _ (by decide))

theorem State.clearStatus_fileKept (noReset : s.held = 0#32) : FileKept s s.clearStatus [.ists, .hpdsts] :=
  (s.memWrite_fileKept _ .ists Word.ones noReset (by simp)).trans (s.memWrite_cfg _ _)
    (State.memWrite_fileKept _ _ .hpdsts Word.ones ((s.memWrite_held _ _ (by decide)).trans noReset) (by simp))

/-- With no reset held, the undefined bits of ISTS survive both writes. -/
theorem State.clearStatus_ists_undefined (noReset : s.held = 0#32) :
    s.clearStatus.core.ists &&& ~~~s.cfg.map.ienAll = s.core.ists &&& ~~~s.cfg.map.ienAll := by
  let cleared := s.memWrite .ists Word.ones
  have held : cleared.held = 0#32 := (s.memWrite_held _ _ (by decide)).trans noReset
  have second := (cleared.memWrite_regKept .hpdsts .ists Word.ones held (by decide)).ists_undefined
  have first : cleared.core.ists = s.envMove.core.ists &&& ~~~s.cfg.map.ienAll :=
    (s.memWrite_written .ists Word.ones (by simp [stored])).trans (s.cfg.map.written_ones (.inl rfl) _)
  rw [s.memWrite_cfg, first, BitVec.and_assoc, BitVec.and_self] at second
  exact second.trans (s.envMove_regKept noReset .ists).ists_undefined

/-- With both gaps quiet, exactly the W1C bits of the two status registers are cleared. -/
theorem State.clearStatus_of_quiet {n : Nat} (quiet : HwQuiet (n + 2) s) :
    s.clearStatus.core.ists = s.core.ists &&& ~~~s.cfg.map.ienAll
      ∧ s.clearStatus.core.hpdsts = s.core.hpdsts &&& ~~~s.cfg.map.hpdEvtAll ∧ HwQuiet n s.clearStatus := by
  let cleared := s.memWrite .ists Word.ones
  have quiet' : HwQuiet (n + 1) cleared := quiet.head.2 _ (s.memWrite_envScript _ _)
  have ists : cleared.core.ists = s.envMove.core.ists &&& ~~~s.cfg.map.ienAll :=
    (s.memWrite_written .ists Word.ones (by simp [stored])).trans (s.cfg.map.written_ones (.inl rfl) _)
  have hpdsts : cleared.core.hpdsts = s.envMove.core.hpdsts :=
    s.envMove.storeCore_coreWord_ne (q := .hpdsts) Word.ones (by decide) (by decide)
  have ists' : s.clearStatus.core.ists = cleared.envMove.core.ists := cleared.envMove.storeCore_hpdsts_ones_ists
  have hpdsts' : s.clearStatus.core.hpdsts = cleared.envMove.core.hpdsts &&& ~~~cleared.cfg.map.hpdEvtAll :=
    (cleared.memWrite_written .hpdsts Word.ones (by simp [stored])).trans (cleared.cfg.map.written_ones (.inr rfl) _)
  refine ⟨?_, ?_, quiet'.head.2 _ (cleared.memWrite_envScript _ _)⟩
  · rw [ists', quiet'.envMove_core, ists, quiet.envMove_core]
  · rw [hpdsts', quiet'.envMove_core, hpdsts, quiet.envMove_core, s.memWrite_cfg]

end clear

/-- Settles O23: the two writes and the `ret`, each after a gap of its own. -/
theorem globalIntrClearClearsStatus : Obligations.GlobalIntrClearClearsStatus := by
  intro s a b
  let accepted := s.accept .globalIntrClear a b
  let cleared := accepted.clearStatus
  let t := cleared.ret .ok 0#32
  have run : RunKept s t := ((s.accept_runKept .globalIntrClear a b).trans accepted.clearStatus_runKept).trans
    (cleared.ret_runKept .ok 0#32)
  have trace : t.trace =
      s.trace ++ [writeEv s .ists 0xFFFFFFFF#32, writeEv s .hpdsts 0xFFFFFFFF#32, .ret .ok 0#32] := by
    simp [t, cleared, accepted, State.clearStatus, writeEv, Word.ones]
  have frame : CommandFrame s t a b := ⟨run.hk, State.ret_pc _ _ _, by simp [t, cleared, accepted, State.clearStatus],
    by simp [t, cleared, accepted, State.clearStatus], run.now⟩
  have passive : PassiveKept s t := ⟨run.ck, run.dl, by simp [t, cleared, accepted, State.clearStatus]⟩
  refine ⟨t, rfl, trace, State.ret_status _ _ _, State.ret_xR _ _ _, by simp [t, cleared, accepted, State.clearStatus],
    by simp [t, cleared, accepted, State.clearStatus], frame, passive, fun noReset => ?_, fun quiet => ?_⟩
  · have held : cleared.held = 0#32 := accepted.clearStatus_held.trans noReset
    have cfg : cleared.cfg = s.cfg := accepted.clearStatus_runKept.cfg
    have undefined := (cleared.ret_regKept .ok 0#32 held .ists).ists_undefined
    rw [cfg] at undefined
    exact ⟨(accepted.clearStatus_fileKept noReset).trans cfg (cleared.ret_fileKept _ .ok 0#32 held),
      undefined.trans (accepted.clearStatus_ists_undefined noReset)⟩
  · obtain ⟨ists, hpdsts, quiet'⟩ := accepted.clearStatus_of_quiet (n := 1) quiet
    have still : t.core = cleared.core := (cleared.ret_core _ _).trans quiet'.envMove_core
    exact ⟨still ▸ ists, still ▸ hpdsts⟩

end Sys2Proof.Machine

/-! PROOFS: the reset sequencer. Each command is a run of stages between its acceptance and its `ret`: the reset
sequence of SOFT_RESET, nested or not, read-modify-writes, a settle wait, and the capture of the identity. -/

namespace Sys2Proof

/-! ### Masks of distinct bits, and masks cleared twice -/

/-- Of two distinct bits the mask of one leaves out the other. -/
theorem bitAt_bitMask_of_ne {p q : BitPos} (distinct : p ≠ q) : bitAt (bitMask q) p = false := by
  rw [bitAt, bitMask_getLsbD q p p.isLt]
  exact decide_eq_false fun same => distinct (Fin.ext same)

/-- Clearing a mask twice is clearing it once. -/
theorem and_not_and_not_self (w m : Word) : w &&& ~~~m &&& ~~~m = w &&& ~~~m := by
  rw [BitVec.and_assoc, BitVec.and_self]

/-- Outside a mask and another, two words agree when they agree outside the one. -/
theorem and_not_or_congr {x y m : Word} (h : x &&& ~~~m = y &&& ~~~m) (k : Word) :
    x &&& ~~~(k ||| m) = y &&& ~~~(k ||| m) := by
  rw [BitVec.not_or, BitVec.and_comm (~~~k), ← BitVec.and_assoc, ← BitVec.and_assoc, h]

end Sys2Proof

namespace Sys2Proof.Machine

/-! ### The end of a command that kept the run -/

section ends
variable {s u : State} {op : Op} {a b : Word}

/-- A command whose micro-sequence keeps the run and its operands ends in the command frame. -/
theorem RunKept.commandFrame (run : RunKept (s.accept op a b) u) (xA : u.xA = a) (xB : u.xB = b) (st : Status)
    (v : Word) : CommandFrame s (u.ret st v) a b := by
  have ended := ((s.accept_runKept op a b).trans run).trans (u.ret_runKept st v)
  exact ⟨ended.hk, u.ret_pc st v, (u.ret_xA st v).trans xA, (u.ret_xB st v).trans xB, ended.now⟩

/-- One that leaves the AUX settle window too leaves everything passive. -/
theorem RunKept.passiveKept (run : RunKept (s.accept op a b) u) (aux : u.auxReadyAt = s.auxReadyAt) (st : Status)
    (v : Word) : PassiveKept s (u.ret st v) := by
  have ended := ((s.accept_runKept op a b).trans run).trans (u.ret_runKept st v)
  exact ⟨ended.ck, ended.dl, (u.ret_auxReadyAt st v).trans aux⟩

end ends

/-! ### SOFT_RESET (R170) -/

section softReset
variable (s : State)

/-- The sequence leaves the bits asked for in x[M], and in x[T] the word that asserted them (R170). -/
theorem State.softResetSeq_temporaries :
    s.softResetSeq.xM = s.xA &&& s.cfg.map.srstValid
      ∧ s.softResetSeq.xT = s.core.srstCtrl ||| (s.xA &&& s.cfg.map.srstValid) := by
  simp [State.softResetSeq, State.srstAssert, State.srstDeassert, State.coreWord, CoreFile.get]

/-- With no valid bit asked for and none held, the sequence holds none at its end. -/
theorem State.softResetSeq_held (noReset : s.held = 0#32) (unasked : s.xA &&& s.cfg.map.srstValid = 0#32) :
    s.softResetSeq.held = 0#32 := by
  obtain ⟨_, _, -, -, -, -, srst, run, -⟩ := s.softResetSeq_spec
  have word : s.softResetSeq.core.srstCtrl = s.core.srstCtrl := by simpa [unasked, and_all_ones] using srst
  rw [State.held, word, run.cfg]; exact noReset

theorem State.srstAssert_held (noReset : s.held = 0#32) (unasked : s.xA &&& s.cfg.map.srstValid = 0#32) :
    s.srstAssert.held = 0#32 := by
  have word : s.srstAssert.core.srstCtrl = s.core.srstCtrl := by simp [State.srstAssert_eq, unasked]
  rw [State.held, word, s.srstAssert_advances.cfg]; exact noReset

theorem State.srstAssert_fileKept (noReset : s.held = 0#32) : FileKept s s.srstAssert [.srstCtrl] := by
  obtain ⟨regs, phycr⟩ := (s.withM (s.xA &&& s.cfg.map.srstValid)).rmw_fileKept [.srstCtrl] .srstCtrl
    (fun t => t ||| (s.xA &&& s.cfg.map.srstValid)) noReset (by simp)
  rw [State.srstAssert_eq]
  exact ⟨regs, phycr⟩

theorem State.srstDeassert_fileKept (noReset : s.held = 0#32) : FileKept s s.srstDeassert [.srstCtrl] :=
  s.rmw_fileKept [.srstCtrl] .srstCtrl _ noReset (by simp)

/-- With no valid bit asked for and none held, none is held in between and SRST_CTRL alone is written (R276). -/
theorem State.softResetSeq_fileKept (noReset : s.held = 0#32) (unasked : s.xA &&& s.cfg.map.srstValid = 0#32) :
    FileKept s s.softResetSeq [.srstCtrl] := by
  have asserted := s.srstAssert_fileKept noReset
  have held := s.srstAssert_held noReset unasked
  have waited := asserted.trans s.srstAssert_advances.cfg
    (s.srstAssert.wait_fileKept [.srstCtrl] s.srstAssert.cfg.tSrstHoldMin held)
  have deasserted := State.srstDeassert_fileKept (s.srstAssert.wait s.srstAssert.cfg.tSrstHoldMin)
    ((State.wait_held _ _).trans held)
  exact waited.trans (s.srstAssert_advances.wait _).cfg deasserted

end softReset

/-- Settles O26: the reset sequence of `softResetSeq_spec`, then `ret`. -/
theorem softResetAssertsHoldsDeasserts : Obligations.SoftResetAssertsHoldsDeasserts := by
  intro s a b
  let accepted := s.accept .softReset a b
  let u := accepted.softResetSeq
  obtain ⟨t0, t1, trace, start, hold, stop, srst, run, aux⟩ := accepted.softResetSeq_spec
  obtain ⟨xM, xT⟩ := accepted.softResetSeq_temporaries
  refine ⟨u.ret .ok 0#32, t0, t1, rfl, ?_, start, hold, stop.trans (u.le_ret_now _ _), ?_,
    (u.ret_xM _ _).trans xM, (u.ret_xT _ _).trans xT, u.ret_status _ _, u.ret_xR _ _,
    run.commandFrame (State.softResetSeq_xA _) (State.softResetSeq_xB _) _ _, run.passiveKept aux _ _,
    fun noReset unasked => ?_⟩
  · rw [State.ret_trace, trace, List.append_assoc]; rfl
  · rw [State.ret_core, State.envMove_srstCtrl, srst, or_and_not]; rfl
  · exact (accepted.softResetSeq_fileKept noReset unasked).trans run.cfg
      (u.ret_fileKept _ _ _ (accepted.softResetSeq_held noReset unasked))

/-! ### TYPEC_ACK (R173) -/

/-- The acknowledge bit takes the status bit read (R173). -/
theorem bitAt_typecAcked (m : RegMap) (t : Word) :
    bitAt (typecAcked m t) m.typecDisableAck = bitAt t m.typecDisableStatus := by
  unfold typecAcked
  cases bitAt t m.typecDisableStatus with
  | true => simp
  | false => exact bitAt_and_not_of_mem (bitAt_bitMask_self _) t

/-- Every other bit is the one read (R173). -/
theorem typecAcked_outside (m : RegMap) (t : Word) :
    typecAcked m t &&& ~~~bitMask m.typecDisableAck = t &&& ~~~bitMask m.typecDisableAck := by
  unfold typecAcked
  cases bitAt t m.typecDisableStatus with
  | true => exact (or_and_not _ _).trans (and_not_and_not_self _ _)
  | false => exact and_not_and_not_self _ _

/-- A command that is one read-modify-write formed in x[T] leaves in the stored bits of its register the function of
the word it read (R73, R80). -/
theorem State.rmwTRet_storedBits (s : State) {r : CoreReg} (f : Word → Word) (st : Status) (v : Word)
    (noReset : s.held = 0#32) (hr : r ≠ .srstCtrl) :
    ((s.rmwT r f).ret st v).coreWord r &&& storedBits s.cfg.map r
      = f (s.envMove.coreWord r) &&& storedBits s.cfg.map r := by
  let formed := (s.readT r).withT (f (s.readT r).xT)
  have held : (formed.memWrite r formed.xT).held = 0#32 := (s.rmwT_held r f hr).trans noReset
  have written := formed.memWriteRet_storedBits r formed.xT st v held
  simpa [formed, State.rmwT] using written

/-- The stored bits of TYPE_C_CTRL are all but the status bit (R44). -/
theorem storedBits_typeCCtrl (m : RegMap) : storedBits m .typeCCtrl = ~~~bitMask m.typecDisableStatus := by
  simp [storedBits, RegMap.deafMask, RegMap.roHwMask, RegMap.w1cMask]

/-- Settles O28: the read-modify-write of TYPE_C_CTRL, of whose word HW drives the status bit alone. -/
theorem typecAckCopiesStatus : Obligations.TypecAckCopiesStatus := by
  intro s a b ack st
  let accepted := s.accept .typecAck a b
  let u := accepted.typecAckSeq
  let v := accepted.envMove.coreWord .typeCCtrl
  have run : RunKept accepted u := accepted.typecAckSeq_runKept
  have trace : (u.ret .ok 0#32).trace = s.trace
      ++ [readEv s .typeCCtrl v, writeEv s .typeCCtrl (typecAcked s.cfg.map v), .ret .ok 0#32] := by
    simp [u, accepted, v, State.typecAckSeq, readEv, writeEv]
  refine ⟨u.ret .ok 0#32, v, typecAcked s.cfg.map v, rfl, trace, bitAt_typecAcked _ _, typecAcked_outside _ _,
    u.ret_status _ _, u.ret_xR _ _, (u.ret_xT _ _).trans (accepted.rmwT_xT _ _),
    (u.ret_xM _ _).trans (accepted.rmwT_xM _ _), run.commandFrame accepted.typecAckSeq_xA accepted.typecAckSeq_xB _ _,
    run.passiveKept accepted.typecAckSeq_auxReadyAt _ _, fun noReset distinct => ?_⟩
  have read : KeptWord s.cfg.map .typeCCtrl s.core.typeCCtrl v := accepted.envMove_regKept noReset .typeCCtrl
  have before : v &&& ~~~bitMask st = s.core.typeCCtrl &&& ~~~bitMask st := by
    simpa only [storedBits_typeCCtrl] using read.storedBits_eq
  have after : (u.ret .ok 0#32).core.typeCCtrl &&& ~~~bitMask st = typecAcked s.cfg.map v &&& ~~~bitMask st := by
    have stored := accepted.rmwTRet_storedBits (r := .typeCCtrl) (typecAcked s.cfg.map) .ok 0#32 noReset (by decide)
    rw [show accepted.cfg = s.cfg from rfl, storedBits_typeCCtrl] at stored
    exact stored
  refine ⟨read, ?_, ?_, accepted.rmwTRet_fileKept .typeCCtrl _ .ok 0#32 noReset (by decide)⟩
  · have bit := congrArg (bitAt · ack) after
    simp only [bitAt_and, bitAt_not, bitAt_bitMask_of_ne distinct, Bool.not_false, Bool.and_true] at bit
    exact bit.trans (bitAt_typecAcked _ _)
  · calc (u.ret .ok 0#32).core.typeCCtrl &&& ~~~(bitMask ack ||| bitMask st)
        = typecAcked s.cfg.map v &&& ~~~(bitMask ack ||| bitMask st) := and_not_or_congr after _
      _ = v &&& ~~~(bitMask ack ||| bitMask st) := by
          rw [BitVec.or_comm]; exact and_not_or_congr (typecAcked_outside _ _) _
      _ = s.core.typeCCtrl &&& ~~~(bitMask ack ||| bitMask st) := and_not_or_congr before _

/-! ### AUX_RESET (R174) -/

section auxReset
variable (s : State)

theorem State.auxResetSeq_xA : s.auxResetSeq.xA = s.xA := (State.wait_xA _ _).trans (s.rmwT_xA _ _)
theorem State.auxResetSeq_xB : s.auxResetSeq.xB = s.xB := (State.wait_xB _ _).trans (s.rmwT_xB _ _)
theorem State.auxResetSeq_xM : s.auxResetSeq.xM = s.xM := (State.wait_xM _ _).trans (s.rmwT_xM _ _)

/-- The write programs AUX_CTRL and starts the settle window, and the wait lasts at least as long (R53, R285). -/
theorem State.auxResetSeq_spec :
    let v := s.envMove.coreWord .auxCtrl
    ∃ t0 t1, s.auxResetSeq.trace = s.trace ++
        [readEv s .auxCtrl v, writeEv s .auxCtrl (auxProgrammed s.cfg.map s.xA v), .wait t0 t1]
      ∧ t0 + s.cfg.tAuxSettle ≤ t1 ∧ s.auxResetSeq.now = t1 ∧ s.auxResetSeq.auxReadyAt ≤ t1 := by
  intro v
  let programmed := s.rmwT .auxCtrl (auxProgrammed s.cfg.map s.xA)
  have ends : s.auxResetSeq.now = programmed.envMove.now + s.cfg.tAuxSettle + programmed.nextEnv.extra := by
    simp [State.auxResetSeq, State.wait_now, programmed]
  have window : s.auxResetSeq.auxReadyAt = programmed.now + s.cfg.tAuxSettle := by
    simp [State.auxResetSeq, programmed, State.rmwT]
  have gap : programmed.now ≤ programmed.envMove.now := programmed.le_envMove_now
  refine ⟨programmed.envMove.now, _, ?_, by omega, ends, by omega⟩
  simp [State.auxResetSeq, programmed, v, readEv, writeEv]

theorem State.auxResetSeq_fileKept (noReset : s.held = 0#32) : FileKept s s.auxResetSeq [.auxCtrl] := by
  have programmed := s.rmwT_fileKept [.auxCtrl] .auxCtrl (auxProgrammed s.cfg.map s.xA) noReset (by simp)
  exact programmed.trans (s.rmwT_cfg _ _)
    (State.wait_fileKept _ _ _ ((s.rmwT_held _ _ (by decide)).trans noReset))

theorem State.auxResetSeq_auxCtrl (noReset : s.held = 0#32) :
    s.auxResetSeq.core.auxCtrl = auxProgrammed s.cfg.map s.xA s.core.auxCtrl := by
  let programmed := s.rmwT .auxCtrl (auxProgrammed s.cfg.map s.xA)
  have held : programmed.held = 0#32 := (s.rmwT_held _ _ (by decide)).trans noReset
  have kept := (programmed.wait_regKept programmed.cfg.tAuxSettle held .auxCtrl).eq_of_wholeRw rfl
  exact kept.trans (s.rmwT_whole .auxCtrl _ noReset (by simp [stored]) rfl)

end auxReset

theorem auxProgrammed_eq (m : RegMap) (a v : Word) : auxProgrammed m a v =
    putField (if a ≠ 0#32 then v ||| bitMask m.auxBlockEn else v &&& ~~~bitMask m.auxBlockEn)
      m.auxVodTune m.auxVodTuneCal := by
  simp [auxProgrammed, isTrue]

/-- Settles O29: the wait begins after the write that starts the settle window, and lasts as long. -/
theorem auxResetProgramsAndSettles : Obligations.AuxResetProgramsAndSettles := by
  intro s a b m prog
  let accepted := s.accept .auxReset a b
  let u := accepted.auxResetSeq
  have programs : prog = auxProgrammed m a := funext fun v => (auxProgrammed_eq m a v).symm
  obtain ⟨t0, t1, trace, settles, stop, ready⟩ := accepted.auxResetSeq_spec
  have run : RunKept accepted u := accepted.auxResetSeq_runKept
  have ended := ((s.accept_runKept .auxReset a b).trans run).trans (u.ret_runKept .ok 0#32)
  refine ⟨u.ret .ok 0#32, accepted.envMove.coreWord .auxCtrl, t0, t1, rfl, ?_, settles,
    stop.ge.trans (u.le_ret_now _ _), (u.ret_auxReadyAt _ _).trans_le ready, u.ret_status _ _,
    u.ret_xR _ _, (u.ret_xM _ _).trans accepted.auxResetSeq_xM,
    run.commandFrame accepted.auxResetSeq_xA accepted.auxResetSeq_xB _ _, ended.ck, ended.dl, fun noReset => ?_⟩
  · rw [programs, State.ret_trace, trace, List.append_assoc]; rfl
  · have held : u.held = 0#32 :=
      (accepted.auxResetSeq_fileKept noReset).held_eq_zero run.cfg (by decide) noReset
    refine ⟨accepted.envMove_whole .auxCtrl noReset rfl, ?_,
      (accepted.auxResetSeq_fileKept noReset).trans run.cfg (u.ret_fileKept _ _ _ held)⟩
    rw [programs]
    exact (u.ret_whole .auxCtrl .ok 0#32 held rfl).trans (accepted.auxResetSeq_auxCtrl noReset)

/-! ### CHECK_CORE_ID (R177) -/

theorem exec_checkCoreId_of_good {s : State} (a b : Word) (good : s.cfg.idValue = s.cfg.map.idExpected) :
    exec (.checkCoreId a b) s =
      .next (((s.accept .checkCoreId a b).readT .id).ret .ok s.cfg.idValue) := by
  simp [exec, execCheckCoreId, State.coreWord, good]

theorem exec_checkCoreId_of_bad {s : State} (a b : Word) (bad : s.cfg.idValue ≠ s.cfg.map.idExpected) :
    exec (.checkCoreId a b) s = .next (((s.accept .checkCoreId a b).readT .id).raiseError
      .identityMismatch .identityMismatch s.cfg.idValue) := by
  simp [exec, execCheckCoreId, State.coreWord, bad]

/-- Settles O32: the word read is the configured one, and either end returns it. -/
theorem checkCoreIdComparesWholeWord : Obligations.CheckCoreIdComparesWholeWord := by
  intro s a b id good
  let accepted := s.accept .checkCoreId a b
  let read := accepted.readT .id
  have word : accepted.envMove.coreWord .id = id := accepted.envMove_coreWord_const .id (by simp)
  have trace : read.trace = s.trace ++ [readEv s .id id] := by
    rw [← word]; exact accepted.readT_trace .id
  have xT : read.xT = id := (accepted.readT_xT .id).trans word
  have xM : read.xM = s.xM := accepted.readT_xM .id
  have run : RunKept accepted read := accepted.readT_runKept .id
  have aux : read.auxReadyAt = s.auxReadyAt := accepted.readT_auxReadyAt .id
  have file (noReset : s.noReset) : FileKept s read [] := accepted.readT_fileKept [] .id noReset
  have held (noReset : s.noReset) : read.held = 0#32 := (accepted.readT_held .id).trans noReset
  by_cases same : good
  · simp only [if_pos same]
    exact ⟨_, exec_checkCoreId_of_good a b same, by rw [State.ret_trace, trace, List.append_assoc]; rfl,
      read.ret_status _ _, read.ret_xR _ _, (read.ret_xT _ _).trans xT, (read.ret_xM _ _).trans xM,
      run.commandFrame (accepted.readT_xA _) (accepted.readT_xB _) _ _, run.passiveKept aux _ _,
      fun noReset => (file noReset).trans run.cfg (read.ret_fileKept _ _ _ (held noReset))⟩
  · simp only [if_neg same]
    have runLogged := run.trans (read.logEvent_runKept .identityMismatch)
    exact ⟨_, exec_checkCoreId_of_bad a b same, by rw [State.raiseError_trace, trace, List.append_assoc]; rfl,
      read.raiseError_status _ _ _, read.raiseError_xR _ _ _, (read.raiseError_xT _ _ _).trans xT,
      (read.raiseError_xM _ _ _).trans xM,
      runLogged.commandFrame (by simp [read, accepted]) (by simp [read, accepted]) _ _,
      runLogged.passiveKept ((read.logEvent_auxReadyAt _).trans aux) _ _,
      fun noReset => (file noReset).trans run.cfg (read.raiseError_fileKept _ _ _ _ (held noReset))⟩

/-! ### SOFT_RESET_ALL as a nested call (R171) -/

/-- The trace entries of the reset sequence with the bits `m`, which holds them from `t0` to `t1` (R170). -/
def softResetEvents (s : State) (m : Word) (t0 t1 : Nat) : List Event :=
  let v := s.core.srstCtrl
  [readEv s .srstCtrl v, writeEv s .srstCtrl (v ||| m), .wait t0 t1,
    readEv s .srstCtrl (v ||| m), writeEv s .srstCtrl ((v ||| m) &&& ~~~m)]

/-- A nested SOFT_RESET_ALL runs the reset sequence with every valid bit, and ends with none of them held. -/
theorem State.callOp_softResetAllSeq_spec (s : State) :
    let t := s.callOp .softResetAll 0#32 0#32 State.softResetAllSeq
    ∃ t0 t1, t.trace = s.trace ++ softResetEvents s s.cfg.map.srstValid t0 t1
      ∧ t0 + s.cfg.tSrstHoldMin ≤ t1 ∧ t1 ≤ t.now
      ∧ t.core.srstCtrl = s.core.srstCtrl &&& ~~~s.cfg.map.srstValid := by
  intro t
  let called := (s.pushFrame .softResetAll 0#32 0#32).pushFrame .softReset s.cfg.map.srstValid 0#32
  obtain ⟨t0, t1, trace, -, hold, stop, srst, -, -⟩ := called.softResetSeq_spec
  have all : called.xA &&& called.cfg.map.srstValid = s.cfg.map.srstValid := BitVec.and_self
  rw [all] at trace srst
  refine ⟨t0, t1, ?_, hold, ?_, ?_⟩
  · rw [State.callOp_trace, State.softResetAllSeq, State.callOp_trace]; exact trace
  · rw [State.callOp_now, State.softResetAllSeq, State.callOp_now]; exact stop
  · rw [State.callOp_core, State.softResetAllSeq, State.callOp_core]; exact srst.trans (or_and_not _ _)

/-! ### CORE_INIT (R176) -/

/-- The two captures write every character of the version string, whatever it was (R176 stages 5 and 6). -/
theorem verstr_captured (old : Vector Byte 10) (n y : Word) :
    (verstrType (verstrNumber old n) y).toList =
      [n.extractLsb' 24 8, 0x2E#8, n.extractLsb' 16 8, n.extractLsb' 8 8, n.extractLsb' 0 8,
        0x2D#8, y.extractLsb' 24 8, y.extractLsb' 16 8, y.extractLsb' 8 8, y.extractLsb' 0 8] := by
  apply List.ext_getElem (by simp)
  intro i hi _
  have small : i < 10 := by simpa using hi
  interval_cases i <;> simp [verstrType, verstrNumber]

theorem readEv_congr {s t : State} (cfg : t.cfg = s.cfg) : readEv t = readEv s := by
  funext r v; rw [readEv, readEv, cfg]
theorem writeEv_congr {s t : State} (cfg : t.cfg = s.cfg) : writeEv t = writeEv s := by
  funext r v; rw [writeEv, writeEv, cfg]

/-- From `s` to `t` stages ran that added `new` to the trace. -/
structure Adds (s t : State) (new : List Event) : Prop where
  trace : t.trace = s.trace ++ new
  advances : Advances s t

section stages
variable {s t u : State} {new new' : List Event}

theorem Adds.refl (s : State) : Adds s s [] := ⟨(List.append_nil _).symm, Advances.refl s⟩

theorem Adds.cfg (h : Adds s t new) : t.cfg = s.cfg := h.advances.cfg

theorem Adds.trans (h : Adds s t new) (h' : Adds t u new') : Adds s u (new ++ new') :=
  ⟨by rw [h'.trace, h.trace, List.append_assoc], h.advances.trans h'.advances⟩

theorem Adds.captureNumber (h : Adds s t new) (v : Word) : Adds s (t.captureNumber v) new :=
  ⟨h.trace, h.advances.captureNumber v⟩
theorem Adds.captureType (h : Adds s t new) (v : Word) : Adds s (t.captureType v) new :=
  ⟨h.trace, h.advances.captureType v⟩

/-- One more stage: a read-modify-write formed in x[T] (R80). -/
theorem Adds.rmwT (h : Adds s t new) (r : CoreReg) (f : Word → Word) :
    ∃ v, Adds s (t.rmwT r f) (new ++ [readEv s r v, writeEv s r (f v)]) := by
  have stage : Adds t (t.rmwT r f) [readEv t r (t.envMove.coreWord r), writeEv t r (f (t.envMove.coreWord r))] :=
    ⟨t.rmwT_trace r f, (Advances.refl t).rmwT r f⟩
  rw [readEv_congr h.cfg, writeEv_congr h.cfg] at stage
  exact ⟨_, h.trans stage⟩

/-- One more stage: a write. -/
theorem Adds.memWrite (h : Adds s t new) (r : CoreReg) (v : Word) :
    Adds s (t.memWrite r v) (new ++ [writeEv s r v]) := by
  have stage : Adds t (t.memWrite r v) [writeEv t r v] := ⟨t.memWrite_trace r v, (Advances.refl t).memWrite r v⟩
  rw [writeEv_congr h.cfg] at stage
  exact h.trans stage

/-- One more stage: a read of an identity register, whose word is configuration (R30 to R32). -/
theorem Adds.memReadConst (h : Adds s t new) {r : CoreReg} (const : r = .verNumber ∨ r = .verType ∨ r = .id)
    {w : Word} (holds : s.coreWord r = w) {keep : State → Word → State} (keeps : ∀ x v, Adds x (keep x v) []) :
    Adds s (t.memRead r keep) (new ++ [readEv s r w]) := by
  have word : t.envMove.coreWord r = w := by
    rw [← holds]
    obtain rfl | rfl | rfl := const <;> simp [State.coreWord, h.cfg]
  have stage : Adds t (t.memRead r keep) [readEv t r (t.envMove.coreWord r)] := by
    refine ⟨?_, (Advances.refl t).memRead r fun x v => (keeps x v).advances⟩
    rw [State.memRead, State.done_trace, (keeps _ _).trace, List.append_nil, State.envMove_trace, State.envMove_cfg]
    rfl
  rw [readEv_congr h.cfg, word] at stage
  exact h.trans stage

/-- One more stage: a nested call, which adds what its body adds (R23). -/
theorem Adds.callOp (h : Adds s t new) {op : Op} {a b : Word} {body : State → State}
    (ran : Adds (t.pushFrame op a b) (body (t.pushFrame op a b)) new') :
    Adds s (t.callOp op a b body) (new ++ new') := by
  refine h.trans ⟨?_, (((Advances.refl t).pushFrame op a b).trans ran.advances).popFrame⟩
  rw [State.callOp_trace]
  exact ran.trace

/-- Stage 2 of CORE_INIT: the nested TYPEC_ACK. -/
theorem Adds.typecAck (h : Adds s t new) :
    ∃ c, Adds s (t.callOp .typecAck 0#32 0#32 State.typecAckSeq)
      (new ++ [readEv s .typeCCtrl c, writeEv s .typeCCtrl (typecAcked s.cfg.map c)]) := by
  let called := t.pushFrame .typecAck 0#32 0#32
  have cfg : called.cfg = s.cfg := h.cfg
  obtain ⟨c, ran⟩ := (Adds.refl called).rmwT .typeCCtrl (typecAcked s.cfg.map)
  rw [readEv_congr cfg, writeEv_congr cfg, List.nil_append] at ran
  have body : called.typecAckSeq = called.rmwT .typeCCtrl (typecAcked s.cfg.map) := by rw [State.typecAckSeq, cfg]
  exact ⟨c, h.callOp (body ▸ ran)⟩

/-- Stage 3 of CORE_INIT: the nested SET_LANES_POWER, which powers down and so kicks no calibration (R191). -/
theorem Adds.lanesDown (h : Adds s t new) :
    ∃ p, Adds s (t.callOp .setLanesPower 0#32 0#32 State.setLanesPowerSeq)
      (new ++ [readEv s .phyifCtrl p, writeEv s .phyifCtrl (lanesPowered s.cfg 0#32 p)]) := by
  let called := t.pushFrame .setLanesPower 0#32 0#32
  have down : called.xA = 0#32 := rfl
  have cfg : called.cfg = s.cfg := h.cfg
  obtain ⟨p, trace, -⟩ := called.setLanesPowerSeq_spec
  rw [down, if_neg (not_not_intro rfl), List.append_nil, readEv_congr cfg, writeEv_congr cfg, cfg] at trace
  exact ⟨p, h.callOp ⟨trace, called.setLanesPowerSeq_advances⟩⟩

/-- Stage 7 of CORE_INIT: the PHY width of the mode (R175). -/
theorem Adds.phyWidthInit (h : Adds s t new) :
    ∃ q, Adds s t.phyWidthInit (new ++ [readEv s .phyifCtrl q, writeEv s .phyifCtrl (widthChosen s.cfg q)]) := by
  rw [State.phyWidthInit, h.cfg]
  exact h.rmwT .phyifCtrl (widthChosen s.cfg)

end stages

section coreInit
variable (s : State)

/-- Stages 2 to 7 of CORE_INIT (R176). -/
theorem State.coreInitSeq_afterReset :
    ∃ c p q, Adds (s.callOp .softResetAll 0#32 0#32 State.softResetAllSeq) s.coreInitSeq
      [readEv s .typeCCtrl c, writeEv s .typeCCtrl (typecAcked s.cfg.map c),
        readEv s .phyifCtrl p, writeEv s .phyifCtrl (lanesPowered s.cfg 0#32 p),
        writeEv s .cctl 0#32, readEv s .verNumber s.cfg.verNumber, readEv s .verType s.cfg.verType,
        readEv s .phyifCtrl q, writeEv s .phyifCtrl (widthChosen s.cfg q)] := by
  let reset := s.callOp .softResetAll 0#32 0#32 State.softResetAllSeq
  have cfg : reset.cfg = s.cfg := ((Advances.refl s).callOp _ _ _ State.softResetAllSeq_advances).cfg
  obtain ⟨c, acked⟩ := (Adds.refl reset).typecAck
  obtain ⟨p, down⟩ := acked.lanesDown
  have number := (down.memWrite .cctl 0#32).memReadConst (.inl rfl) (w := reset.cfg.verNumber) rfl
    fun x v => (Adds.refl x).captureNumber v
  have type := number.memReadConst (.inr (.inl rfl)) (w := reset.cfg.verType) rfl
    fun x v => (Adds.refl x).captureType v
  obtain ⟨q, width⟩ := type.phyWidthInit
  rw [readEv_congr cfg, writeEv_congr cfg, cfg] at width
  exact ⟨c, p, q, width⟩

/-- The two identity words are in VERSTR and VERSION when CORE_INIT ends (R176 stages 5 and 6). -/
theorem State.coreInitSeq_identity :
    s.coreInitSeq.verstr = verstrType (verstrNumber s.verstr s.cfg.verNumber) s.cfg.verType
      ∧ s.coreInitSeq.version = s.cfg.verType := by
  simp [State.coreInitSeq, State.memRead, State.coreWord]

/-- Only the nested reset of CORE_INIT writes SRST_CTRL (R34). -/
theorem State.coreInitSeq_srst :
    s.coreInitSeq.core.srstCtrl = s.core.srstCtrl &&& ~~~s.cfg.map.srstValid := by
  obtain ⟨_, _, -, -, -, srst⟩ := s.callOp_softResetAllSeq_spec
  rw [← srst]
  simp [State.coreInitSeq, State.memRead, State.memWrite_srst_ne]

end coreInit

/-- Settles O30: the nested reset, the six stages after it, then `ret`. -/
theorem coreInitSequenceAndCapture : Obligations.CoreInitSequenceAndCapture := by
  intro s a b m v n y
  let accepted := s.accept .coreInit a b
  let u := accepted.coreInitSeq
  obtain ⟨t0, t1, reset, hold, stop, -⟩ := accepted.callOp_softResetAllSeq_spec
  obtain ⟨c, p, q, rest⟩ := accepted.coreInitSeq_afterReset
  obtain ⟨verstr, version⟩ := accepted.coreInitSeq_identity
  have handle : HandleKept s (u.ret .ok 0#32) := by simp [u, accepted, HandleKept]
  have ends : u.now ≤ (u.ret .ok 0#32).now := u.le_ret_now _ _
  have time : s.now ≤ (u.ret .ok 0#32).now := accepted.coreInitSeq_advances.now.trans ends
  refine ⟨u.ret .ok 0#32, t0, t1, c, p, q, rfl, ?_, hold, (stop.trans rest.advances.now).trans ends, ?_,
    (u.ret_version _ _).trans version, u.ret_status _ _, u.ret_xR _ _,
    ⟨handle, u.ret_pc _ _, (u.ret_xA _ _).trans accepted.coreInitSeq_xA,
      (u.ret_xB _ _).trans accepted.coreInitSeq_xB, time⟩,
    (u.ret_deadline _ _).trans accepted.coreInitSeq_deadline,
    (u.ret_auxReadyAt _ _).trans accepted.coreInitSeq_auxReadyAt, ?_⟩
  · rw [State.ret_trace, rest.trace, reset, List.append_assoc, List.append_assoc]; rfl
  · rw [State.ret_verstr, verstr]; exact verstr_captured s.verstr n y
  · rw [State.ret_core, State.envMove_srstCtrl]; exact accepted.coreInitSeq_srst

/-! ### CORE_DEINIT (R178) -/

/-- Settles O33: the nested GLOBAL_INTR_DIS, whose stages leave SRST_CTRL, then the nested SOFT_RESET_ALL. -/
theorem coreDeinitDisablesThenResets : Obligations.CoreDeinitDisablesThenResets := by
  intro s a b m v
  let accepted := s.accept .coreDeinit a b
  let disabled := accepted.callOp .globalIntrDis 0#32 0#32 State.globalIntrDisSeq
  let u := accepted.coreDeinitSeq
  obtain ⟨v1, v3, v4, v5, stages⟩ := (accepted.pushFrame .globalIntrDis 0#32 0#32).globalIntrDisSeq_maskRun
  have disables := State.callOp_maskRun stages
  obtain ⟨t0, t1, reset, hold, stop, srst⟩ := disabled.callOp_softResetAllSeq_spec
  have cfg : disabled.cfg = s.cfg := disables.cfg
  have word : disabled.core.srstCtrl = v :=
    (congrArg CoreFile.srstCtrl (State.callOp_core _ _ _ _ _)).trans (State.globalIntrDisSeq_srst _)
  rw [cfg] at reset hold srst
  rw [word] at srst
  have run : RunKept accepted u := accepted.coreDeinitSeq_runKept
  refine ⟨u.ret .ok 0#32, t0, t1, v1, v3, v4, v5, rfl, ?_, hold, stop.trans (u.le_ret_now _ _), ?_,
    u.ret_status _ _, u.ret_xR _ _, run.commandFrame accepted.coreDeinitSeq_xA accepted.coreDeinitSeq_xB _ _,
    run.passiveKept accepted.coreDeinitSeq_auxReadyAt _ _⟩
  · have events : softResetEvents disabled m.srstValid t0 t1 = softResetEvents s m.srstValid t0 t1 := by
      rw [softResetEvents, readEv_congr cfg, writeEv_congr cfg, word]; rfl
    have trace : u.trace = disabled.trace ++ softResetEvents s m.srstValid t0 t1 := events ▸ reset
    rw [State.ret_trace, trace, disables.trace]
    simp only [List.append_assoc]; rfl
  · rw [State.ret_core, State.envMove_srstCtrl]; exact srst

end Sys2Proof.Machine

/-! PROOFS: the PHY lane controller. A command that is under way has added its events and has written at most the
registers it names; what its read-modify-write leaves in PHYIF_CTRL, outside the BUSY bits that HW drives, is said once,
and so is the part of PHYIF_CTRL that each command owns. -/

namespace Sys2Proof.Machine

/-! ### A command under way -/

/-- A command accepted in `s` has come to `u`, its operands now `a` and `b`: it has added `new` to the trace and, with
no reset held, has written only the registers `l`. -/
structure Underway (s u : State) (a b : Word) (new : List Event) (l : List CoreReg) : Prop where
  run : RunKept s u
  trace : u.trace = s.trace ++ new
  xA : u.xA = a
  xB : u.xB = b
  auxReadyAt : u.auxReadyAt = s.auxReadyAt
  held : u.held = s.held
  file : s.noReset → FileKept s u l

section underway
variable {s u : State} {a b : Word} {new : List Event} {l : List CoreReg}

theorem Underway.accept (s : State) (op : Op) (a b : Word) : Underway s (s.accept op a b) a b [] [] :=
  ⟨s.accept_runKept op a b, (List.append_nil _).symm, rfl, rfl, rfl, rfl, fun _ => FileKept.refl s _⟩

theorem Underway.cfg (h : Underway s u a b new l) : u.cfg = s.cfg := h.run.cfg

theorem Underway.noReset (h : Underway s u a b new l) (noReset : s.noReset) : u.noReset := h.held.trans noReset

theorem Underway.withM (h : Underway s u a b new l) (v : Word) : Underway s (u.withM v) a b new l :=
  ⟨h.run.trans (u.withM_runKept v), h.trace, h.xA, h.xB, h.auxReadyAt, h.held, h.file⟩

/-- One more stage. -/
theorem Underway.trans {w : State} {more : List Event} (h : Underway s u a b new l)
    (stage : Underway u w u.xA u.xB more l) : Underway s w a b (new ++ more) l where
  run := h.run.trans stage.run
  trace := by rw [stage.trace, h.trace, List.append_assoc]
  xA := stage.xA.trans h.xA
  xB := stage.xB.trans h.xB
  auxReadyAt := stage.auxReadyAt.trans h.auxReadyAt
  held := stage.held.trans h.held
  file noReset := (h.file noReset).trans h.cfg (stage.file (h.noReset noReset))

/-- Under way without a write is under way with the writes to come. -/
theorem Underway.mono (h : Underway s u a b new []) (l : List CoreReg) : Underway s u a b new l :=
  ⟨h.run, h.trace, h.xA, h.xB, h.auxReadyAt, h.held, fun noReset => (h.file noReset).mono (by simp)⟩

theorem Underway.logEvent (h : Underway s u a b new l) (id : LogId) :
    Underway s (u.logEvent id) a b (new ++ [.log id]) l :=
  h.trans ⟨u.logEvent_runKept id, u.logEvent_trace id, u.logEvent_xA id, u.logEvent_xB id, u.logEvent_auxReadyAt id,
    u.logEvent_held id, u.logEvent_fileKept l id⟩

/-- A warning that is logged unless the operand is good (R122, R194). -/
theorem Underway.logUnless (h : Underway s u a b new l) (id : LogId) {p q : Prop} [Decidable p] [Decidable q]
    (same : p ↔ q) :
    Underway s (if p then u else u.logEvent id) a b (new ++ if q then [] else [.log id]) l := by
  by_cases good : p
  · rw [if_pos good, if_pos (same.mp good), List.append_nil]; exact h
  · rw [if_neg good, if_neg fun hq => good (same.mpr hq)]; exact h.logEvent id

theorem Underway.readT (h : Underway s u a b new l) (r : CoreReg) :
    Underway s (u.readT r) a b (new ++ [readEv s r (u.envMove.coreWord r)]) l := by
  have stage : Underway u (u.readT r) u.xA u.xB [readEv u r (u.envMove.coreWord r)] l :=
    ⟨u.readT_runKept r, u.readT_trace r, u.readT_xA r, u.readT_xB r, u.readT_auxReadyAt r, u.readT_held r,
      u.readT_fileKept l r⟩
  rw [readEv_congr h.cfg] at stage
  exact h.trans stage

/-- The one read-modify-write of a command, of PHYIF_CTRL (R80). -/
theorem Underway.rmwPhyif (h : Underway s u a b new []) (f : Word → Word) :
    Underway s (u.rmw .phyifCtrl f) a b (new ++ [readEv s .phyifCtrl (u.envMove.coreWord .phyifCtrl),
      writeEv s .phyifCtrl (f (u.envMove.coreWord .phyifCtrl))]) [.phyifCtrl] := by
  have stage : Underway u (u.rmw .phyifCtrl f) u.xA u.xB _ [.phyifCtrl] :=
    ⟨u.rmw_runKept _ f, u.rmw_trace _ f, u.rmw_xA _ f, u.rmw_xB _ f, u.rmw_auxReadyAt_ne _ f (by decide),
      u.rmw_held _ f (by decide), fun noReset => u.rmw_fileKept _ _ f noReset (by simp)⟩
  rw [h.cfg] at stage
  exact (h.mono _).trans stage

/-- The same with the new word formed in x[T] (R202). -/
theorem Underway.rmwTPhyif (h : Underway s u a b new []) (f : Word → Word) :
    Underway s (u.rmwT .phyifCtrl f) a b (new ++ [readEv s .phyifCtrl (u.envMove.coreWord .phyifCtrl),
      writeEv s .phyifCtrl (f (u.envMove.coreWord .phyifCtrl))]) [.phyifCtrl] := by
  have stage : Underway u (u.rmwT .phyifCtrl f) u.xA u.xB _ [.phyifCtrl] :=
    ⟨u.rmwT_runKept _ f, u.rmwT_trace _ f, u.rmwT_xA _ f, u.rmwT_xB _ f, u.rmwT_auxReadyAt_ne _ f (by decide),
      u.rmwT_held _ f (by decide), fun noReset => u.rmwT_fileKept _ _ f noReset (by simp)⟩
  rw [h.cfg] at stage
  exact (h.mono _).trans stage

/-- How the command ends from there, by its `ret`. -/
theorem Underway.ends (h : Underway s u a b new l) {x m : Word} (xT : u.xT = x) (xM : u.xM = m) (st : Status)
    (v : Word) : let t := u.ret st v
    t.trace = s.trace ++ (new ++ [.ret st v]) ∧ t.status = st ∧ t.xR = v ∧ t.xT = x ∧ t.xM = m
      ∧ CommandFrame s t a b ∧ PassiveKept s t ∧ (s.noReset → FileKept s t l) := by
  have run := h.run.trans (u.ret_runKept st v)
  exact ⟨by rw [State.ret_trace, h.trace, List.append_assoc], u.ret_status _ _, u.ret_xR _ _,
    (u.ret_xT _ _).trans xT, (u.ret_xM _ _).trans xM,
    ⟨run.hk, u.ret_pc _ _, (u.ret_xA _ _).trans h.xA, (u.ret_xB _ _).trans h.xB, run.now⟩,
    ⟨run.ck, run.dl, (u.ret_auxReadyAt _ _).trans h.auxReadyAt⟩,
    fun noReset => (h.file noReset).trans h.cfg (u.ret_fileKept l st v (h.noReset noReset))⟩

end underway

/-! ### What a read-modify-write leaves in PHYIF_CTRL -/

/-- A register that is kept differs in PHYIF_CTRL at most in the BUSY bits (R40, R56). -/
theorem RegKept.outsideBusy_eq {s t : State} (h : RegKept s t .phyifCtrl) :
    outsideBusy s t.core.phyifCtrl = outsideBusy s s.core.phyifCtrl := by
  have rw : rwBits s.cfg.map .phyifCtrl = ~~~s.cfg.map.busy.allMask := by
    simp [rwBits, RegMap.roHwMask, RegMap.w1cMask]
  unfold outsideBusy
  rw [← rw]
  exact h.1

/-- A function of words that acts bit by bit: what it makes of a bit depends on that bit alone. -/
def Bitwise (f : Word → Word) : Prop := ∀ x y m : Word, x &&& m = y &&& m → f x &&& m = f y &&& m

theorem bitwise_putField (f : Field) (n : Word) : Bitwise (putField · f n) := fun x y m => putField_congr x y n f m

theorem Bitwise.outsideBusy_congr {f : Word → Word} (hf : Bitwise f) {s : State} {x y : Word}
    (h : outsideBusy s x = outsideBusy s y) : outsideBusy s (f x) = outsideBusy s (f y) := hf x y _ h

section phyif
variable {s u : State} {a b : Word} {new : List Event} {l : List CoreReg} {f : Word → Word}

/-- The word read differs from the one before the command at most in the BUSY bits. -/
theorem Underway.read_outsideBusy (h : Underway s u a b new []) (noReset : s.noReset) :
    outsideBusy s u.envMove.core.phyifCtrl = outsideBusy s s.core.phyifCtrl := by
  have gap : RegKept s u.envMove .phyifCtrl :=
    ((h.file noReset).1 .phyifCtrl (by simp)).trans h.cfg (u.envMove_regKept (h.noReset noReset) _)
  exact gap.outsideBusy_eq

theorem Underway.rmwRet_outsideBusy (h : Underway s u a b new []) (hf : Bitwise f) (st : Status) (v : Word)
    (noReset : s.noReset) :
    outsideBusy s ((u.rmw .phyifCtrl f).ret st v).core.phyifCtrl = outsideBusy s (f s.core.phyifCtrl) := by
  have left := u.rmwRet_phyif f st v (h.noReset noReset)
  rw [h.cfg] at left
  exact left.trans (hf.outsideBusy_congr (h.read_outsideBusy noReset))

theorem Underway.rmwTRet_outsideBusy (h : Underway s u a b new []) (hf : Bitwise f) (st : Status) (v : Word)
    (noReset : s.noReset) :
    outsideBusy s ((u.rmwT .phyifCtrl f).ret st v).core.phyifCtrl = outsideBusy s (f s.core.phyifCtrl) := by
  have left := u.rmwTRet_phyif f st v (h.noReset noReset)
  rw [h.cfg] at left
  exact left.trans (hf.outsideBusy_congr (h.read_outsideBusy noReset))

/-- A command that, once under way, is one read-modify-write of PHYIF_CTRL (R80). -/
theorem Underway.rmwPhyifCommand (h : Underway s u a b new []) (xM : u.xM = s.xM) (hf : Bitwise f) :
    let t := (u.rmw .phyifCtrl f).ret .ok 0#32
    ∃ v, t.trace = s.trace ++ (new ++ [readEv s .phyifCtrl v, writeEv s .phyifCtrl (f v), .ret .ok 0#32])
      ∧ t.status = .ok ∧ t.xR = 0#32 ∧ t.xT = v ∧ t.xM = s.xM ∧ CommandFrame s t a b ∧ PassiveKept s t
      ∧ (s.noReset → outsideBusy s t.core.phyifCtrl = outsideBusy s (f s.core.phyifCtrl)
          ∧ FileKept s t [.phyifCtrl]) := by
  obtain ⟨trace, status, xR, xT, xM, frame, passive, file⟩ :=
    (h.rmwPhyif f).ends (u.rmw_xT _ f) ((u.rmw_xM _ f).trans xM) .ok 0#32
  rw [List.append_assoc] at trace
  exact ⟨_, trace, status, xR, xT, xM, frame, passive,
    fun noReset => ⟨h.rmwRet_outsideBusy hf _ _ noReset, file noReset⟩⟩

end phyif

/-! ### SET_PATTERN, SET_RATE, SET_LANES, ENABLE_XMIT (R193, R194, R201, R202) -/

/-- Settles O47: one read-modify-write that puts the operand in TPS_SEL. -/
theorem setPatternStoresTruncated : Obligations.SetPatternStoresTruncated := by
  intro s a b
  obtain ⟨v, spec⟩ := (Underway.accept s .setPattern a b).rmwPhyifCommand rfl (bitwise_putField s.cfg.map.tpsSel a)
  exact ⟨_, v, rfl, spec⟩

theorem validRate_iff (m : RegMap) (n : Word) : validRate m n = true ↔ n ∈ m.rates := by
  simp [validRate, RegMap.rates, or_assoc]

/-- Settles O38: a warning unless the operand is a rate, then the read-modify-write all the same. -/
theorem setRateStoresTruncated : Obligations.SetRateStoresTruncated := by
  intro s a b
  let accepted := s.accept .setRate a b
  let checked := if validRate s.cfg.map a = true then accepted else accepted.logEvent .invalidRate
  have under : Underway s checked a b _ [] :=
    (Underway.accept s .setRate a b).logUnless .invalidRate (validRate_iff s.cfg.map a)
  have xM : checked.xM = s.xM := by simp only [checked]; split <;> simp [accepted]
  obtain ⟨v, spec⟩ := under.rmwPhyifCommand xM (bitwise_putField s.cfg.map.rate a)
  refine ⟨_, v, ?_, spec⟩
  have operands : execSetRate a b s = .next ((checked.rmw .phyifCtrl fun t =>
      putField t checked.cfg.map.rate checked.xA).ret .ok 0#32) := rfl
  rw [exec, operands, under.cfg, under.xA]

theorem exec_setLanes_of_laneCode {s : State} {a n : Word} (b : Word) (code : laneCode a = some n) :
    exec (.setLanes a b) s =
      .next (((s.accept .setLanes a b).rmw .phyifCtrl (putField · s.cfg.map.lanes n)).ret .ok 0#32) := by
  simp [exec, execSetLanes, code]

theorem exec_setLanes_of_invalid {s : State} {a : Word} (b : Word) (none : laneCode a = none) :
    exec (.setLanes a b) s = .next (((s.accept .setLanes a b).logEvent .invalidLaneCount).ret .ok 0#32) := by
  simp [exec, execSetLanes, none]

/-- Settles O36: the lane-count table of R121, and the event alone for a count that is not in it. -/
theorem setLanesStoresLogOrLogs : Obligations.SetLanesStoresLogOrLogs := by
  intro s a b
  have under := Underway.accept s .setLanes a b
  constructor
  · intro n row
    have code : laneCode a = some n := by obtain ⟨rfl, rfl⟩ | ⟨rfl, rfl⟩ | ⟨rfl, rfl⟩ := row <;> rfl
    obtain ⟨v, spec⟩ := under.rmwPhyifCommand rfl (bitwise_putField s.cfg.map.lanes n)
    exact ⟨_, v, exec_setLanes_of_laneCode b code, spec⟩
  · intro not1 not2 not4
    have none : laneCode a = none := by simp [laneCode, not1, not2, not4]
    exact ⟨_, exec_setLanes_of_invalid b none,
      (under.logEvent .invalidLaneCount).ends (State.logEvent_xT _ _) (State.logEvent_xM _ _) .ok 0#32⟩

theorem validLanes_iff (n : Word) : validLanes n = true ↔ n = 1#32 ∨ n = 2#32 ∨ n = 4#32 := by
  simp [validLanes, or_assoc]

/-- The selection of lanes by the first operand, with its warning (R122). -/
theorem Underway.selectLanes {s u : State} {a b : Word} {new : List Event} {l : List CoreReg}
    (h : Underway s u a b new l) (k : PerLane BitPos) :
    Underway s (u.selectLanes k) a b
      (new ++ if a = 1#32 ∨ a = 2#32 ∨ a = 4#32 then [] else [.log .invalidLanes]) l :=
  (h.logUnless .invalidLanes (h.xA ▸ validLanes_iff u.xA)).withM _

/-- Setting or clearing the bits of a mask acts bit by bit. -/
theorem bitwise_setOrClear (p : Prop) [Decidable p] (sel : Word) :
    Bitwise fun v => if p then v ||| sel else v &&& ~~~sel := by
  intro x y m h
  rw [and_mask_eq_iff] at h ⊢
  intro i hi hm
  by_cases hp : p <;> simp [hp, h i hi hm, -BitVec.getLsbD_eq_getElem]

/-- Settles O48: the selection with its warning, then one read-modify-write formed in x[T]. -/
theorem enableXmitSetsSelectedLanes : Obligations.EnableXmitSetsSelectedLanes := by
  intro s a b k sel w
  let selected := (s.accept .enableXmit a b).selectLanes k
  have under : Underway s selected a b _ [] := (Underway.accept s .enableXmit a b).selectLanes k
  have bitwise : Bitwise w := bitwise_setOrClear _ sel
  obtain ⟨trace, status, xR, xT, xM, frame, passive, file⟩ :=
    (under.rmwTPhyif w).ends (selected.rmwT_xT _ w) (selected.rmwT_xM _ w) .ok 0#32
  let formed := fun v : Word => if isTrue selected.xB then v ||| selected.xM else v &&& ~~~selected.xM
  have word : formed = w := by
    funext v
    simp only [formed, isTrue, decide_eq_true_eq, under.xB]
    rfl
  have operands : exec (.enableXmit a b) s = .next ((selected.rmwT .phyifCtrl formed).ret .ok 0#32) := rfl
  rw [List.append_assoc] at trace
  exact ⟨_, _, word ▸ operands, trace, status, xR, xT, xM, frame, passive,
    fun noReset => ⟨under.rmwTRet_outsideBusy bitwise _ _ noReset, file noReset⟩⟩

end Sys2Proof.Machine

/-! PROOFS: the two readers of PHYIF_CTRL, lane power, the round trips of lane count and rate, and the independence of
the PHY commands. PHYIF_CTRL falls into disjoint parts (R117 b), and each command writes one. -/

namespace Sys2Proof

/-! ### The parts of PHYIF_CTRL -/

/-- The parts of PHYIF_CTRL that the commands own, one each (R203). -/
inductive PhyPart where
  | power
  | pattern
  | rate
  | laneCount
  | xmit
deriving DecidableEq

/-- The mask of a part; the power part is that of the power-down layout in use (R8). -/
def Cfg.partMask (c : Cfg) : PhyPart → Word
  | .power => if c.quirk.combinedPwrdown then c.map.pwrdownComb.mask else c.map.pwrdownLane.allMask
  | .pattern => c.map.tpsSel.mask
  | .rate => c.map.rate.mask
  | .laneCount => c.map.lanes.mask
  | .xmit => c.map.xmitEn.allMask

/-- The masks of PHYIF_CTRL in the layout in use, each bit family as one mask. -/
def Cfg.phyifRow (c : Cfg) : List Word :=
  [c.partMask .power, c.map.tpsSel.mask, c.map.rate.mask, c.map.lanes.mask, bitMask c.map.width,
    c.map.xmitEn.allMask, c.map.busy.allMask]

/-- The place of a part in that row. -/
def PhyPart.place : PhyPart → Nat
  | .power => 0
  | .pattern => 1
  | .rate => 2
  | .laneCount => 3
  | .xmit => 5

theorem Cfg.phyifRow_place (c : Cfg) (p : PhyPart) : c.phyifRow[p.place]? = some (c.partMask p) := by
  cases p <;> rfl

theorem PhyPart.place_lt_busy (p : PhyPart) : p.place < 6 := by cases p <;> decide

theorem PhyPart.place_ne {p q : PhyPart} (distinct : p ≠ q) : p.place ≠ q.place := by
  revert distinct; cases p <;> cases q <;> decide

/-- In a row of disjoint masks the four bits of a family may stand as one mask. -/
theorem disjointMasks_merge {l l' : List Word} {p : PerLane BitPos}
    (h : disjointMasks (l ++ (p.toList.map bitMask ++ l')) = true) : disjointMasks (l ++ p.allMask :: l') = true := by
  simp only [disjointMasks, decide_eq_true_eq, List.pairwise_append, List.pairwise_cons, List.mem_append,
    List.mem_cons] at h ⊢
  obtain ⟨before, ⟨-, behind, across⟩, apart⟩ := h
  refine ⟨before, ⟨fun y hy => ?_, behind⟩, fun x hx y hy => ?_⟩
  · rw [BitVec.and_comm]
    exact and_allMask_eq_zero fun q hq => (BitVec.and_comm _ _).trans (across _ (List.mem_map_of_mem hq) y hy)
  · obtain rfl | hy := hy
    · exact and_allMask_eq_zero fun q hq => apart x hx _ (Or.inl (List.mem_map_of_mem hq))
    · exact apart x hx y (Or.inr hy)

section wf
variable {c : Cfg} (wf : c.wf = true)
include wf

theorem Cfg.phyifRow_disjoint : disjointMasks c.phyifRow = true := by
  let fields := [c.map.tpsSel.mask, c.map.rate.mask, c.map.lanes.mask, bitMask c.map.width]
  by_cases layout : c.quirk.combinedPwrdown = true
  · have xmit := disjointMasks_merge (l := c.map.pwrdownComb.mask :: fields) (Cfg.wf_phyif_comb wf)
    have busy := disjointMasks_merge (l := c.map.pwrdownComb.mask :: fields ++ [c.map.xmitEn.allMask]) (l' := []) xmit
    simpa [Cfg.phyifRow, Cfg.partMask, layout, fields] using busy
  · have power := disjointMasks_merge (l := []) (Cfg.wf_phyif_lane wf)
    have xmit := disjointMasks_merge (l := c.map.pwrdownLane.allMask :: fields) power
    have busy := disjointMasks_merge (l := c.map.pwrdownLane.allMask :: fields ++ [c.map.xmitEn.allMask])
      (l' := []) xmit
    simpa [Cfg.phyifRow, Cfg.partMask, layout, fields] using busy

/-- The parts are disjoint from each other (R117 b). -/
theorem Cfg.partMask_disjoint {p q : PhyPart} (distinct : p ≠ q) : c.partMask p &&& c.partMask q = 0#32 := by
  obtain first | second := Nat.lt_or_gt_of_ne (PhyPart.place_ne distinct)
  · exact disjointMasks_pair (Cfg.phyifRow_disjoint wf) first (c.phyifRow_place p) (c.phyifRow_place q)
  · rw [BitVec.and_comm]
    exact disjointMasks_pair (Cfg.phyifRow_disjoint wf) second (c.phyifRow_place q) (c.phyifRow_place p)

/-- No part holds a BUSY bit (R117 b). -/
theorem Cfg.partMask_busy (p : PhyPart) : c.partMask p &&& c.map.busy.allMask = 0#32 :=
  disjointMasks_pair (Cfg.phyifRow_disjoint wf) p.place_lt_busy (c.phyifRow_place p) rfl

theorem Cfg.rate_fits : c.map.rate.fits = true := by
  have fields := Cfg.wf_fields wf
  simp only [RegMap.wfFields, Bool.and_eq_true] at fields
  simp [fields]
theorem Cfg.lanes_fits : c.map.lanes.fits = true := by
  have fields := Cfg.wf_fields wf
  simp only [RegMap.wfFields, Bool.and_eq_true] at fields
  simp [fields]
theorem Cfg.pwrdownComb_fits : c.map.pwrdownComb.fits = true := by
  have fields := Cfg.wf_fields wf
  simp only [RegMap.wfFields, Bool.and_eq_true] at fields
  simp [fields]

/-- A lane-count code fits the LANES field, which has two bits at least (R117 c). -/
theorem Cfg.laneCode_lt {n : Word} (small : n.toNat < 4) : n.toNat < 2 ^ c.map.lanes.width := by
  have widths := Cfg.wf_widths wf
  simp only [RegMap.wfWidths, Bool.and_eq_true, decide_eq_true_eq] at widths
  obtain ⟨⟨⟨-, two⟩, -⟩, -⟩ := widths
  exact lt_of_lt_of_le (b := 2 ^ 2) small (Nat.pow_le_pow_right Nat.two_pos two)

/-- A rate encoding fits the RATE field (R117 k). -/
theorem Cfg.rate_lt {r : Word} (hr : r ∈ c.map.rates) : r.toNat < 2 ^ c.map.rate.width := by
  have rates := Cfg.wf_rates wf
  simp only [RegMap.wfRates, Bool.and_eq_true, List.all_eq_true, decide_eq_true_eq] at rates
  obtain ⟨⟨⟨-, fit⟩, -⟩, -⟩ := rates
  exact fit r hr

/-- The combined power-down value is non-zero and fits its field (R117 i). -/
theorem Cfg.pwrdownCombDown_good :
    c.map.pwrdownCombDown ≠ 0#32 ∧ c.map.pwrdownCombDown.toNat < 2 ^ c.map.pwrdownComb.width := by
  simpa [RegMap.wfPwrdown] using Cfg.wf_pwrdown wf

end wf

/-- Words that agree outside a mask agree on a mask disjoint from it. -/
theorem and_congr_of_disjoint {x y k m : Word} (h : x &&& ~~~k = y &&& ~~~k) (apart : m &&& k = 0#32) :
    x &&& m = y &&& m := by
  rw [and_mask_eq_iff] at h ⊢
  intro i hi hm
  have clear := (and_mask_eq_zero_iff k m).mp ((BitVec.and_comm k m).trans apart) i hi hm
  exact h i hi (by simp [clear, hi, -BitVec.getLsbD_eq_getElem])

end Sys2Proof

namespace Sys2Proof.Machine

/-- Outside BUSY is outside every BUSY bit, so words that agree there agree on a part (R40, R117 b). -/
theorem partMask_congr {s : State} (wf : s.cfg.wf = true) {x y : Word} (h : outsideBusy s x = outsideBusy s y)
    (p : PhyPart) : x &&& s.cfg.partMask p = y &&& s.cfg.partMask p :=
  and_congr_of_disjoint h (Cfg.partMask_busy wf p)

/-! ### GET_LANES, GET_RATE (R192, R195) -/

/-- The word that a command's first read finds in PHYIF_CTRL. -/
theorem State.readT_phyif (s : State) : (s.readT .phyifCtrl).xT = s.envMove.core.phyifCtrl := s.readT_xT .phyifCtrl

theorem exec_getLanes (s : State) (a b : Word) :
    let accepted := s.accept .getLanes a b
    exec (.getLanes a b) s = .next ((accepted.readT .phyifCtrl).ret .ok
      (oneShl (getField accepted.envMove.core.phyifCtrl s.cfg.map.lanes))) := by
  simp [exec, execGetLanes, State.readT_phyif, -State.readT_xT]

theorem exec_getRate (s : State) (a b : Word) :
    let accepted := s.accept .getRate a b
    exec (.getRate a b) s = .next ((accepted.readT .phyifCtrl).ret .ok
      (getField accepted.envMove.core.phyifCtrl s.cfg.map.rate)) := by
  simp [exec, execGetRate, State.readT_phyif, -State.readT_xT]

/-- Settles O35: one read, whose LANES field HW does not drive. -/
theorem getLanesDecodesField : Obligations.GetLanesDecodesField := by
  intro s a b
  let accepted := s.accept .getLanes a b
  let v := accepted.envMove.core.phyifCtrl
  have under := Underway.accept s .getLanes a b
  obtain ⟨trace, status, xR, xT, xM, frame, passive, file⟩ :=
    (under.readT .phyifCtrl).ends (accepted.readT_xT _) (accepted.readT_xM _) .ok
      (oneShl (getField v s.cfg.map.lanes))
  refine ⟨_, v, _, exec_getLanes s a b, trace, fun small => if_pos small, status, xR, xT, xM, frame, passive,
    fun noReset => ⟨file noReset, fun wf => ?_⟩⟩
  exact getField_congr _ _ _ (partMask_congr wf (under.read_outsideBusy noReset) .laneCount)

/-- Settles O39: one read, whose RATE field HW does not drive. -/
theorem getRateReturnsField : Obligations.GetRateReturnsField := by
  intro s a b
  let accepted := s.accept .getRate a b
  have under := Underway.accept s .getRate a b
  let v := accepted.envMove.core.phyifCtrl
  obtain ⟨trace, status, xR, xT, xM, frame, passive, file⟩ :=
    (under.readT .phyifCtrl).ends (accepted.readT_xT _) (accepted.readT_xM _) .ok (getField v s.cfg.map.rate)
  refine ⟨_, v, exec_getRate s a b, trace, status, xR, xT, xM, frame, passive,
    fun noReset => ⟨file noReset, fun wf => xR.trans ?_⟩⟩
  exact getField_congr _ _ _ (partMask_congr wf (under.read_outsideBusy noReset) .rate)

/-! ### The round trips (R204) -/

theorem exec_next_unique {i : Instr} {s t u : State} (ht : exec i s = .next t) (hu : exec i s = .next u) : t = u :=
  Host.Outcome.next.inj (ht.symm.trans hu)

theorem CommandFrame.cfg {s t : State} {a b : Word} (h : CommandFrame s t a b) : t.cfg = s.cfg := by
  obtain ⟨⟨-, -, cfg, -⟩, -⟩ := h
  exact cfg

/-- Settles O40: the rate fits its field, no BUSY bit is in it, and GET_RATE reads it back. -/
theorem rateRoundTrip : Obligations.RateRoundTrip := by
  intro s t u r b c d wf noReset rate set get
  obtain ⟨t', -, ht, -, -, -, -, -, frame, -, stored⟩ := setRateStoresTruncated s r b
  obtain rfl := exec_next_unique set ht
  obtain ⟨word, file⟩ := stored noReset
  obtain ⟨u', -, hu, -, -, -, -, -, -, -, read⟩ := getRateReturnsField t c d
  obtain rfl := exec_next_unique get hu
  obtain ⟨-, field⟩ := read (file.held_eq_zero frame.cfg (by decide) noReset)
  calc u.xR = getField t.core.phyifCtrl t.cfg.map.rate := field (by rw [frame.cfg]; exact wf)
    _ = getField t.core.phyifCtrl s.cfg.map.rate := by rw [frame.cfg]
    _ = getField (putField s.core.phyifCtrl s.cfg.map.rate r) s.cfg.map.rate :=
        getField_congr _ _ _ (partMask_congr wf word .rate)
    _ = r := getField_putField_of_lt _ _ _ (Cfg.rate_fits wf) (Cfg.rate_lt wf rate)

/-- A lane count is 1 shifted by its code (R121). -/
theorem exists_laneCode {n : Word} (valid : n = 1#32 ∨ n = 2#32 ∨ n = 4#32) :
    ∃ k : Word, ((n = 1#32 ∧ k = 0#32) ∨ (n = 2#32 ∧ k = 1#32) ∨ (n = 4#32 ∧ k = 2#32)) ∧ k.toNat < 4
      ∧ 1#32 <<< k.toNat = n := by
  obtain rfl | rfl | rfl := valid
  · exact ⟨0#32, by decide⟩
  · exact ⟨1#32, by decide⟩
  · exact ⟨2#32, by decide⟩

/-- Settles O37: the code of the count fits LANES, GET_LANES reads it back, and 1 shifted by it is the count. -/
theorem laneCountRoundTrip : Obligations.LaneCountRoundTrip := by
  intro s t u n b c d wf noReset valid set get
  obtain ⟨k, row, small, shifted⟩ := exists_laneCode valid
  obtain ⟨stores, -⟩ := setLanesStoresLogOrLogs s n b
  obtain ⟨t', -, ht, -, -, -, -, -, frame, -, stored⟩ := stores k row
  obtain rfl := exec_next_unique set ht
  obtain ⟨word, file⟩ := stored noReset
  obtain ⟨u', v, x, hu, -, decoded, -, xR, -, -, -, -, read⟩ := getLanesDecodesField t c d
  obtain rfl := exec_next_unique get hu
  obtain ⟨-, field⟩ := read (file.held_eq_zero frame.cfg (by decide) noReset)
  have code : getField v t.cfg.map.lanes = k :=
    calc getField v t.cfg.map.lanes = getField t.core.phyifCtrl t.cfg.map.lanes := field (by rw [frame.cfg]; exact wf)
      _ = getField t.core.phyifCtrl s.cfg.map.lanes := by rw [frame.cfg]
      _ = getField (putField s.core.phyifCtrl s.cfg.map.lanes k) s.cfg.map.lanes :=
          getField_congr _ _ _ (partMask_congr wf word .laneCount)
      _ = k := getField_putField_of_lt _ _ _ (Cfg.lanes_fits wf) (Cfg.laneCode_lt wf small)
  rw [code] at decoded
  rw [xR, decoded (by omega), shifted]

/-! ### The PHY projection, part by part (R54) -/

/-- Which lanes a PHYIF_CTRL word powers, in the layout in use. -/
def lanePower (c : Cfg) (w : Word) : PerLane Bool :=
  if c.quirk.combinedPwrdown then mapLanes (fun _ => decide (getField w c.map.pwrdownComb = 0#32)) c.map.pwrdownLane
  else mapLanes (fun p => !bitAt w p) c.map.pwrdownLane

section projection
variable (s : State)

theorem State.phyConfig_laneCount :
    s.phyConfig.laneCount = oneShl (getField s.core.phyifCtrl s.cfg.map.lanes) := rfl
theorem State.phyConfig_rate : s.phyConfig.rate = getField s.core.phyifCtrl s.cfg.map.rate := rfl
theorem State.phyConfig_pattern : s.phyConfig.pattern = getField s.core.phyifCtrl s.cfg.map.tpsSel := rfl
theorem State.phyConfig_preemp : s.phyConfig.preemp = mapLanes (getField s.core.phyTxEq) s.cfg.map.preemp := rfl
theorem State.phyConfig_vswing : s.phyConfig.vswing = mapLanes (getField s.core.phyTxEq) s.cfg.map.vswing := rfl
theorem State.phyConfig_xmit : s.phyConfig.xmit = mapLanes (bitAt s.core.phyifCtrl) s.cfg.map.xmitEn := rfl
theorem State.phyConfig_powered : s.phyConfig.powered = lanePower s.cfg s.core.phyifCtrl := rfl

end projection

/-! ### Lane power (R190, R191, R54) -/

/-- Functions that agree at the items of the four lanes agree lane by lane. -/
theorem mapLanes_congr {α β : Type} {f g : α → β} {p : PerLane α} (h : ∀ x ∈ p.toList, f x = g x) :
    mapLanes f p = mapLanes g p := by
  simp only [PerLane.toList, List.forall_mem_cons, List.not_mem_nil, false_imp_iff, implies_true, and_true] at h
  obtain ⟨h0, h1, h2, h3⟩ := h
  rw [mapLanes, mapLanes, h0, h1, h2, h3]

/-- The mask of a family has the bit of each lane. -/
theorem bitAt_allMask {p : PerLane BitPos} {q : BitPos} (hq : q ∈ p.toList) : bitAt p.allMask q = true := by
  simp only [PerLane.toList, List.mem_cons, List.not_mem_nil, or_false] at hq
  obtain rfl | rfl | rfl | rfl := hq <;> simp [PerLane.allMask]

/-- Words that agree under a mask agree on each of its bits. -/
theorem bitAt_congr {x y m : Word} (h : x &&& m = y &&& m) {q : BitPos} (hq : bitAt m q = true) :
    bitAt x q = bitAt y q := (and_mask_eq_iff x y m).mp h q.val q.isLt hq

/-- Lane power is a function of the power part. -/
theorem lanePower_congr {c : Cfg} {x y : Word} (h : x &&& c.partMask .power = y &&& c.partMask .power) :
    lanePower c x = lanePower c y := by
  unfold lanePower
  by_cases layout : c.quirk.combinedPwrdown = true
  · simp only [Cfg.partMask, if_pos layout] at h ⊢
    rw [getField_congr x y _ h]
  · simp only [Cfg.partMask, if_neg layout] at h ⊢
    exact mapLanes_congr fun q hq => congrArg _ (bitAt_congr h (bitAt_allMask hq))

theorem lanesPowered_eq (c : Cfg) (a v : Word) : lanesPowered c a v =
    if c.quirk.combinedPwrdown then putField v c.map.pwrdownComb (if a ≠ 0#32 then 0#32 else c.map.pwrdownCombDown)
    else if a ≠ 0#32 then v &&& ~~~c.map.pwrdownLane.allMask else v ||| c.map.pwrdownLane.allMask := by
  simp only [lanesPowered, isTrue, decide_eq_true_eq]

/-- On a well-formed map the update of R190 powers all four lanes as asked, in either layout. -/
theorem lanePower_lanesPowered {c : Cfg} (wf : c.wf = true) (a v : Word) : lanePower c (lanesPowered c a v) =
    mapLanes (fun _ => decide (a ≠ 0#32)) c.map.pwrdownLane := by
  obtain ⟨downNonzero, downFits⟩ := Cfg.pwrdownCombDown_good wf
  rw [lanesPowered_eq, lanePower]
  by_cases layout : c.quirk.combinedPwrdown = true
  · simp only [if_pos layout]
    refine mapLanes_congr fun _ _ => ?_
    by_cases up : a ≠ 0#32
    · rw [if_pos up, getField_putField_of_lt _ _ _ (Cfg.pwrdownComb_fits wf) (by simp)]
      simp [up]
    · rw [if_neg up, getField_putField_of_lt _ _ _ (Cfg.pwrdownComb_fits wf) downFits]
      simp [up, downNonzero]
  · simp only [if_neg layout]
    refine mapLanes_congr fun q hq => ?_
    by_cases up : a ≠ 0#32 <;> simp [up, bitAt_allMask hq]

/-- Settles O34: the micro-sequence of `setLanesPowerSeq_spec`, then `ret`; HW drives no bit of the power part. -/
theorem setLanesPowerDrivesAllLanes : Obligations.SetLanesPowerDrivesAllLanes := by
  intro s a b m w
  let accepted := s.accept .setLanesPower a b
  let u := accepted.setLanesPowerSeq
  have update : lanesPowered s.cfg a = w := funext (lanesPowered_eq s.cfg a)
  obtain ⟨v, trace, run, aux, xA, xB, stored⟩ := accepted.setLanesPowerSeq_spec
  refine ⟨u.ret .ok 0#32, v, rfl, ?_, u.ret_status _ _, u.ret_xR _ _, run.commandFrame xA xB _ _,
    run.passiveKept aux _ _, fun noReset => ?_⟩
  · rw [State.ret_trace, trace, ← update, List.append_assoc]; rfl
  · obtain ⟨regs, phycr, word, held⟩ := stored noReset
    have cfg : u.cfg = s.cfg := run.cfg
    have busyOnly : outsideBusy s (u.ret .ok 0#32).core.phyifCtrl = outsideBusy s u.core.phyifCtrl := by
      have kept := (u.ret_regKept .ok 0#32 held .phyifCtrl).outsideBusy_eq
      unfold outsideBusy at kept ⊢
      rwa [cfg] at kept
    have left : outsideBusy s (u.ret .ok 0#32).core.phyifCtrl = outsideBusy s (w s.core.phyifCtrl) :=
      (busyOnly.trans word).trans (by rw [← update]; rfl)
    refine ⟨left, fun r hr => (regs r hr).trans cfg (u.ret_regKept .ok 0#32 held r),
      ((u.ret_phycr4 _ _).trans (u.envMove_phycr4 held)).trans phycr, fun wf => ?_⟩
    rw [State.phyConfig_powered, State.ret_cfg, cfg, lanePower_congr (partMask_congr wf left .power), ← update,
      lanePower_lanesPowered wf]
    rfl

/-! ### Independence of the PHY commands (R203) -/

/-- From `s` to `t` part `p` of PHYIF_CTRL and BUSY may have changed, and nothing else that the PHY projection shows. -/
structure OnlyPart (s t : State) (p : PhyPart) : Prop where
  cfg : t.cfg = s.cfg
  txEq : t.core.phyTxEq = s.core.phyTxEq
  others : ∀ q, q ≠ p → t.core.phyifCtrl &&& s.cfg.partMask q = s.core.phyifCtrl &&& s.cfg.partMask q

/-- A command that left, outside BUSY, a word which differs from the one before in part `p` alone. -/
theorem OnlyPart.of_word {s t : State} {p : PhyPart} {w : Word} (wf : s.cfg.wf = true) (cfg : t.cfg = s.cfg)
    (regs : RegsKept s t [.phyifCtrl]) (left : outsideBusy s t.core.phyifCtrl = outsideBusy s w)
    (inside : ∀ k, s.cfg.partMask p &&& k = 0#32 → w &&& k = s.core.phyifCtrl &&& k) : OnlyPart s t p :=
  ⟨cfg, (regs .phyTxEq (by decide)).eq_of_wholeRw rfl, fun q hq =>
    (partMask_congr wf left q).trans (inside _ (Cfg.partMask_disjoint wf hq.symm))⟩

section projection
variable {s t : State} {p : PhyPart} (h : OnlyPart s t p)
include h

theorem OnlyPart.pattern_eq (other : PhyPart.pattern ≠ p) : t.phyConfig.pattern = s.phyConfig.pattern := by
  simp only [State.phyConfig_pattern, h.cfg]
  exact getField_congr _ _ _ (h.others .pattern other)
theorem OnlyPart.rate_eq (other : PhyPart.rate ≠ p) : t.phyConfig.rate = s.phyConfig.rate := by
  simp only [State.phyConfig_rate, h.cfg]
  exact getField_congr _ _ _ (h.others .rate other)
theorem OnlyPart.laneCount_eq (other : PhyPart.laneCount ≠ p) : t.phyConfig.laneCount = s.phyConfig.laneCount := by
  simp only [State.phyConfig_laneCount, h.cfg]
  exact congrArg oneShl (getField_congr _ _ _ (h.others .laneCount other))
theorem OnlyPart.xmit_eq (other : PhyPart.xmit ≠ p) : t.phyConfig.xmit = s.phyConfig.xmit := by
  simp only [State.phyConfig_xmit, h.cfg]
  exact mapLanes_congr fun _ hq => bitAt_congr (h.others .xmit other) (bitAt_allMask hq)
theorem OnlyPart.powered_eq (other : PhyPart.power ≠ p) : t.phyConfig.powered = s.phyConfig.powered := by
  simp only [State.phyConfig_powered, h.cfg]
  exact lanePower_congr (h.others .power other)
theorem OnlyPart.preemp_eq : t.phyConfig.preemp = s.phyConfig.preemp := by
  simp only [State.phyConfig_preemp, h.cfg, h.txEq]
theorem OnlyPart.vswing_eq : t.phyConfig.vswing = s.phyConfig.vswing := by
  simp only [State.phyConfig_vswing, h.cfg, h.txEq]

end projection

theorem PhyLaneConfig.eq_of_fields {c d : PhyLaneConfig} (laneCount : c.laneCount = d.laneCount)
    (rate : c.rate = d.rate) (pattern : c.pattern = d.pattern) (preemp : c.preemp = d.preemp)
    (vswing : c.vswing = d.vswing) (xmit : c.xmit = d.xmit) (powered : c.powered = d.powered) : c = d := by
  cases c; cases d; simp_all

/-! #### The words written differ in one part -/

/-- The bits of a selection are bits of its family. -/
theorem allMask_of_laneBits {k : PerLane BitPos} {n : Word} {i : Nat} (selected : (laneBits k n).getLsbD i = true) :
    k.allMask.getLsbD i = true := by
  simp only [PerLane.allMask, BitVec.getLsbD_or, Bool.or_eq_true]
  unfold laneBits at selected
  split_ifs at selected
  · exact Or.inl (Or.inl (Or.inl selected))
  · rw [BitVec.getLsbD_or, Bool.or_eq_true] at selected
    exact Or.inl (Or.inl selected)
  · simpa only [BitVec.getLsbD_or, Bool.or_eq_true] using selected
  · exact absurd selected (by simp)

/-- A mask disjoint from a family is disjoint from every selection of it. -/
theorem laneBits_and_eq_zero {k : PerLane BitPos} {m : Word} (apart : k.allMask &&& m = 0#32) (n : Word) :
    laneBits k n &&& m = 0#32 := by
  rw [and_mask_eq_zero_iff] at apart ⊢
  intro i hi hm
  by_contra selected
  have inFamily := allMask_of_laneBits (Bool.of_not_eq_false selected)
  rw [apart i hi hm] at inFamily
  exact Bool.false_ne_true inFamily

/-- Setting or clearing the bits of a mask leaves the bits outside it. -/
theorem setOrClear_outside {sel m : Word} (apart : sel &&& m = 0#32) (p : Prop) [Decidable p] (v : Word) :
    (if p then v ||| sel else v &&& ~~~sel) &&& m = v &&& m := by
  rw [and_mask_eq_iff]
  intro i hi hm
  have clear := (and_mask_eq_zero_iff sel m).mp apart i hi hm
  by_cases hp : p <;> simp [hp, clear, hi, -BitVec.getLsbD_eq_getElem]

/-- The update of lane power leaves the bits outside the power part. -/
theorem lanesPowered_outside {c : Cfg} {m : Word} (apart : c.partMask .power &&& m = 0#32) (a v : Word) :
    lanesPowered c a v &&& m = v &&& m := by
  unfold lanesPowered
  by_cases layout : c.quirk.combinedPwrdown = true
  · simp only [Cfg.partMask, if_pos layout] at apart ⊢
    exact putField_outside _ _ _ _ apart
  · simp only [Cfg.partMask, if_neg layout] at apart ⊢
    have cleared := setOrClear_outside apart (¬ isTrue a = true) v
    rwa [ite_not] at cleared

section commands
variable {s t : State} {a b : Word} (wf : s.cfg.wf = true) (noReset : s.noReset)
include wf noReset

theorem OnlyPart.setPattern (h : exec (.setPattern a b) s = .next t) : OnlyPart s t .pattern := by
  obtain ⟨t', -, ht, -, -, -, -, -, frame, -, stored⟩ := setPatternStoresTruncated s a b
  obtain rfl := exec_next_unique h ht
  obtain ⟨word, file⟩ := stored noReset
  exact .of_word wf frame.cfg file.1 word fun k => putField_outside _ _ _ k

theorem OnlyPart.setRate (h : exec (.setRate a b) s = .next t) : OnlyPart s t .rate := by
  obtain ⟨t', -, ht, -, -, -, -, -, frame, -, stored⟩ := setRateStoresTruncated s a b
  obtain rfl := exec_next_unique h ht
  obtain ⟨word, file⟩ := stored noReset
  exact .of_word wf frame.cfg file.1 word fun k => putField_outside _ _ _ k

theorem OnlyPart.setLanes (h : exec (.setLanes a b) s = .next t) : OnlyPart s t .laneCount := by
  obtain ⟨stores, logs⟩ := setLanesStoresLogOrLogs s a b
  by_cases valid : a = 1#32 ∨ a = 2#32 ∨ a = 4#32
  · obtain ⟨n, row, -⟩ := exists_laneCode valid
    obtain ⟨t', -, ht, -, -, -, -, -, frame, -, stored⟩ := stores n row
    obtain rfl := exec_next_unique h ht
    obtain ⟨word, file⟩ := stored noReset
    exact .of_word wf frame.cfg file.1 word fun k => putField_outside _ _ _ k
  · obtain ⟨not1, not2, not4⟩ : a ≠ 1#32 ∧ a ≠ 2#32 ∧ a ≠ 4#32 := by simpa only [not_or] using valid
    obtain ⟨t', ht, -, -, -, -, -, frame, -, kept⟩ := logs not1 not2 not4
    obtain rfl := exec_next_unique h ht
    have file := kept noReset
    exact .of_word wf frame.cfg (file.mono (by simp)).1 (file.1 .phyifCtrl (by simp)).outsideBusy_eq fun _ _ => rfl

theorem OnlyPart.enableXmit (h : exec (.enableXmit a b) s = .next t) : OnlyPart s t .xmit := by
  obtain ⟨t', -, ht, -, -, -, -, -, frame, -, stored⟩ := enableXmitSetsSelectedLanes s a b
  obtain rfl := exec_next_unique h ht
  obtain ⟨word, file⟩ := stored noReset
  exact .of_word wf frame.cfg file.1 word fun k apart => setOrClear_outside (laneBits_and_eq_zero apart a) _ _

theorem OnlyPart.setLanesPower (h : exec (.setLanesPower a b) s = .next t) : OnlyPart s t .power := by
  obtain ⟨t', -, ht, -, -, -, frame, -, stored⟩ := setLanesPowerDrivesAllLanes s a b
  obtain rfl := exec_next_unique h ht
  obtain ⟨word, regs, -⟩ := stored noReset
  exact .of_word wf frame.cfg regs word fun k apart =>
    (congrArg (· &&& k) (lanesPowered_eq s.cfg a _).symm).trans (lanesPowered_outside apart a _)

end commands

/-- Settles O49: each command changes its own part of PHYIF_CTRL alone, and the other projections do not see it. -/
theorem phyTransitionsAreIndependent : Obligations.PhyTransitionsAreIndependent := by
  intro s t a b wf noReset
  refine ⟨fun h => ?_, fun h => ?_, fun h => ?_, fun h => ?_, fun h => ?_⟩
  · have only := OnlyPart.setPattern wf noReset h
    exact PhyLaneConfig.eq_of_fields (only.laneCount_eq (by decide)) (only.rate_eq (by decide)) rfl only.preemp_eq
      only.vswing_eq (only.xmit_eq (by decide)) (only.powered_eq (by decide))
  · have only := OnlyPart.setRate wf noReset h
    exact PhyLaneConfig.eq_of_fields (only.laneCount_eq (by decide)) rfl (only.pattern_eq (by decide)) only.preemp_eq
      only.vswing_eq (only.xmit_eq (by decide)) (only.powered_eq (by decide))
  · have only := OnlyPart.setLanes wf noReset h
    exact PhyLaneConfig.eq_of_fields rfl (only.rate_eq (by decide)) (only.pattern_eq (by decide)) only.preemp_eq
      only.vswing_eq (only.xmit_eq (by decide)) (only.powered_eq (by decide))
  · have only := OnlyPart.enableXmit wf noReset h
    exact PhyLaneConfig.eq_of_fields (only.laneCount_eq (by decide)) (only.rate_eq (by decide))
      (only.pattern_eq (by decide)) only.preemp_eq only.vswing_eq rfl (only.powered_eq (by decide))
  · have only := OnlyPart.setLanesPower wf noReset h
    exact PhyLaneConfig.eq_of_fields (only.laneCount_eq (by decide)) (only.rate_eq (by decide))
      (only.pattern_eq (by decide)) only.preemp_eq only.vswing_eq (only.xmit_eq (by decide)) rfl

end Sys2Proof.Machine

/-! PROOFS: the equalization setters, and the busy poll. A setter writes one of eight disjoint fields of PHY_TX_EQ
(R117 d); the poll's reads, its outcomes and its bound are those of `pollBusy_spec`, its events are told here. -/

namespace Sys2Proof

/-! ### The eight equalization fields (R117 c, d) -/

theorem PerLane.get_mem_toList {α : Type} (p : PerLane α) (l : Nat) : p.get l ∈ p.toList := by
  unfold PerLane.get PerLane.toList
  split <;> simp

theorem PerLane.toList_getElem? {α : Type} (p : PerLane α) {l : Nat} (hl : l ≤ 3) : p.toList[l]? = some (p.get l) := by
  interval_cases l <;> rfl

/-- Fields of distinct lanes of a family are disjoint when all four are. -/
theorem lanes_disjoint {p : PerLane Field} (h : disjointMasks (p.toList.map Field.mask) = true) {i j : Nat}
    (hi : i ≤ 3) (hj : j ≤ 3) (distinct : i ≠ j) : (p.get i).mask &&& (p.get j).mask = 0#32 := by
  have place {l : Nat} (hl : l ≤ 3) : (p.toList.map Field.mask)[l]? = some (p.get l).mask := by
    rw [List.getElem?_map, p.toList_getElem? hl]; rfl
  obtain below | above := Nat.lt_or_gt_of_ne distinct
  · exact disjointMasks_pair h below (place hi) (place hj)
  · exact (BitVec.and_comm _ _).trans (disjointMasks_pair h above (place hj) (place hi))

section wf
variable {c : Cfg} (wf : c.wf = true)
include wf

/-- Each family's fields are disjoint, and so are the families from each other (R117 d). -/
theorem Cfg.txEq_disjoint : disjointMasks (c.map.preemp.toList.map Field.mask) = true
    ∧ disjointMasks (c.map.vswing.toList.map Field.mask) = true
    ∧ ∀ f ∈ c.map.preemp.toList, ∀ g ∈ c.map.vswing.toList, f.mask &&& g.mask = 0#32 := by
  have all := Cfg.wf_txEq wf
  simp only [RegMap.wfTxEq, disjointMasks, decide_eq_true_eq, List.pairwise_append] at all ⊢
  obtain ⟨preemp, vswing, across⟩ := all
  exact ⟨preemp, vswing, fun f hf g hg => across _ (List.mem_map_of_mem hf) _ (List.mem_map_of_mem hg)⟩

/-- Every equalization field fits its register and has two bits (R117 c; log 16). -/
theorem Cfg.txEq_field {fields : PerLane Field} (family : fields = c.map.preemp ∨ fields = c.map.vswing) (l : Nat) :
    (fields.get l).fits = true ∧ (fields.get l).width = 2 := by
  have fit := Cfg.wf_fields wf
  have widths := Cfg.wf_widths wf
  simp only [RegMap.wfFields, RegMap.wfWidths, Bool.and_eq_true, List.all_eq_true, beq_iff_eq] at fit widths
  obtain ⟨⟨-, fitP⟩, fitV⟩ := fit
  obtain ⟨⟨-, wideP⟩, wideV⟩ := widths
  obtain rfl | rfl := family
  · exact ⟨fitP _ (PerLane.get_mem_toList _ l), wideP _ (PerLane.get_mem_toList _ l)⟩
  · exact ⟨fitV _ (PerLane.get_mem_toList _ l), wideV _ (PerLane.get_mem_toList _ l)⟩

end wf

end Sys2Proof

namespace Sys2Proof.Machine

/-! ### SET_PRE_EMPHASIS and SET_VSWING (R199, R200) -/

/-- The command `i` is the setter, with operands `a` and `b`, of the family `fields` of PHY_TX_EQ. -/
def IsEqSetter (s : State) (a b : Word) (i : Instr) (fields : PerLane Field) : Prop :=
  (i = .setPreEmphasis a b ∧ fields = s.cfg.map.preemp) ∨ (i = .setVswing a b ∧ fields = s.cfg.map.vswing)

/-- Both setters are, after their acceptance, `setLevel` of their family. -/
theorem exec_eqSetter {s : State} {a b : Word} {i : Instr} {fields : PerLane Field}
    (hi : IsEqSetter s a b i fields) :
    ∃ op, exec i s = .next ((s.accept op a b).setLevel fields) := by
  obtain ⟨rfl, rfl⟩ | ⟨rfl, rfl⟩ := hi
  · exact ⟨.setPreEmphasis, rfl⟩
  · exact ⟨.setVswing, rfl⟩

/-- Settles O45: the two courses of `setLevel`; a level of at most 3 fits its two-bit field. -/
theorem equalizationSettersClampOrLog : Obligations.EqualizationSettersClampOrLog := by
  intro s a b i fields hi
  obtain ⟨op, hexec⟩ := exec_eqSetter hi
  constructor
  · intro lane lvl
    obtain ⟨v, trace, status, xR, xT, xM, xA, xB, pc, kept, aux, stored⟩ := (s.accept op a b).setLevel_spec fields lane
    have run := (s.accept_runKept op a b).trans kept
    refine ⟨_, v, hexec, trace, status, xR, xT, xM, ⟨run.hk, pc, xA, xB, run.now⟩, ⟨run.ck, run.dl, aux⟩,
      fun noReset => ?_⟩
    obtain ⟨file, word⟩ := stored noReset
    refine ⟨word, file, fun wf => ?_⟩
    obtain ⟨fits, width⟩ := Cfg.txEq_field wf (hi.imp And.right And.right) a.toNat
    have small : lvl.toNat < 2 ^ (fields.get a.toNat).width := by
      rw [width]
      by_cases level : b.toNat ≤ 3
      · rw [show lvl = b from if_pos level]; omega
      · rw [show lvl = 3#32 from if_neg level]; decide
    exact (congrArg (getField · _) word).trans (getField_putField_of_lt _ _ _ fits small)
  · intro lane
    rw [(s.accept op a b).setLevel_invalid fields lane] at hexec
    exact ⟨_, hexec, ((Underway.accept s op a b).logEvent .invalidLaneIndex).ends (State.logEvent_xT _ _)
      (State.logEvent_xM _ _) .ok 0#32⟩

theorem mapLanes_get {α β : Type} (f : α → β) (p : PerLane α) (l : Nat) : (mapLanes f p).get l = f (p.get l) := by
  unfold PerLane.get
  split <;> rfl

/-- What a setter with a valid lane leaves of PHY_TX_EQ. -/
theorem exec_eqSetter_txEq {s t : State} {a b : Word} {i : Instr} {fields : PerLane Field}
    (hi : IsEqSetter s a b i fields) (noReset : s.noReset) (lane : a.toNat ≤ 3) (h : exec i s = .next t) :
    t.cfg = s.cfg ∧ ∃ lvl, t.core.phyTxEq = putField s.core.phyTxEq (fields.get a.toNat) lvl := by
  obtain ⟨sets, -⟩ := equalizationSettersClampOrLog s a b i fields hi
  obtain ⟨t', v, ht, -, -, -, -, -, frame, -, stored⟩ := sets lane
  obtain rfl := exec_next_unique h ht
  obtain ⟨word, -⟩ := stored noReset
  exact ⟨frame.cfg, _, word⟩

/-- A family of fields reads the same after a write of a field disjoint from all of them. -/
theorem mapLanes_getField_putField {p : PerLane Field} {f : Field} (apart : ∀ g ∈ p.toList, f.mask &&& g.mask = 0#32)
    (w n : Word) : mapLanes (getField (putField w f n)) p = mapLanes (getField w) p :=
  mapLanes_congr fun g hg => getField_putField_disjoint _ _ _ _ (apart g hg)

/-- Settles O46: the field written is disjoint from the other family and from the other lanes of its own. -/
theorem equalizationFieldsAreIndependent : Obligations.EqualizationFieldsAreIndependent := by
  intro s t a b wf noReset lane
  obtain ⟨preemp, vswing, across⟩ := Cfg.txEq_disjoint wf
  constructor
  · intro h
    obtain ⟨cfg, lvl, word⟩ := exec_eqSetter_txEq (Or.inl ⟨rfl, rfl⟩) noReset lane h
    simp only [State.phyConfig_preemp, State.phyConfig_vswing, cfg, word, mapLanes_get]
    exact ⟨mapLanes_getField_putField (across _ (PerLane.get_mem_toList _ _)) _ _, fun l hl other =>
      getField_putField_disjoint _ _ _ _ (lanes_disjoint preemp lane hl other.symm)⟩
  · intro h
    obtain ⟨cfg, lvl, word⟩ := exec_eqSetter_txEq (Or.inr ⟨rfl, rfl⟩) noReset lane h
    simp only [State.phyConfig_preemp, State.phyConfig_vswing, cfg, word, mapLanes_get]
    have apart (f : Field) (hf : f ∈ s.cfg.map.preemp.toList) := across f hf _ (PerLane.get_mem_toList _ a.toNat)
    exact ⟨mapLanes_getField_putField (fun f hf => (BitVec.and_comm _ _).trans (apart f hf)) _ _, fun l hl other =>
      getField_putField_disjoint _ _ _ _ (lanes_disjoint vswing lane hl other.symm)⟩

/-! ### WAIT_BUSY (R196, R197) -/

/-- Settles O41: in simulated mode the `ret` follows the acceptance at once. -/
theorem waitBusySimulatedIsImmediate : Obligations.WaitBusySimulatedIsImmediate := by
  intro s a b sim
  have immediate : exec (.waitBusy a b) s = .next ((s.accept .waitBusy a b).ret .ok 0#32) := by
    simp [exec, execWaitBusy, sim]
  exact ⟨_, immediate, (Underway.accept s .waitBusy a b).ends rfl rfl .ok 0#32⟩

theorem exec_waitBusy_of_not_sim {s : State} (a b : Word) (real : s.cfg.simMode = false) :
    exec (.waitBusy a b) s = .next (s.accept .waitBusy a b).waitBusySeq := by
  simp [exec, execWaitBusy, real]

/-- The end of a poll, with its events: `poll` first, then Busy if it timed out, then the `ret`. -/
def PollTrace (s t : State) (poll : List Event) : Prop :=
  t.trace = s.trace ++ (poll ++ ((if t.status = .busy then [.log .busy] else []) ++ [.ret t.status t.xR]))

theorem State.pollTimeout_pollTrace (s : State) : PollTrace s s.pollTimeout [] := by
  simp [PollTrace, State.pollTimeout]

theorem PollTrace.after {s u t : State} {first poll : List Event} (h : PollTrace u t poll)
    (trace : u.trace = s.trace ++ first) : PollTrace s t (first ++ poll) := by
  rw [PollTrace, h, trace]
  simp only [List.append_assoc]

/-- The poll itself logs nothing: each iteration is a read and, when it is not the last, a wait (R197). -/
theorem State.pollBusy_pollTrace (top : Pc) (n : Nat) (s : State) :
    ∃ poll, PollTrace s (State.pollBusy top n s) poll ∧ logsOf poll = [] := by
  induction n generalizing s with
  | zero => exact ⟨[], State.pollTimeout_pollTrace _, rfl⟩
  | succ n ih =>
    let read := s.readT .phyifCtrl
    let waited := read.wait read.cfg.tPoll
    have readTrace := s.readT_trace .phyifCtrl
    have waitedTrace := (read.wait_trace read.cfg.tPoll).trans (congrArg (· ++ _) readTrace)
    rw [List.append_assoc] at waitedTrace
    rw [State.pollBusy]
    simp only
    split_ifs
    · exact ⟨_, PollTrace.after (poll := []) (by simp [PollTrace]) readTrace, rfl⟩
    · exact ⟨_, PollTrace.after waited.pollTimeout_pollTrace waitedTrace, rfl⟩
    · obtain ⟨poll, trace, quiet⟩ := ih (waited.withPc top)
      exact ⟨_, trace.after waitedTrace, quiet⟩

/-- The state in which the poll starts: lanes selected, deadline set (R197). -/
def State.pollStart (s : State) : State :=
  let selected := s.selectLanes s.cfg.map.busy
  selected.withDeadline (selected.now + selected.cfg.tBusyDeadline)

/-- WAIT_BUSY is a poll from there. -/
theorem State.waitBusySeq_spec (s : State) : ∃ vs last new, PollRes s.pollStart s.waitBusySeq vs last new :=
  State.pollBusy_spec _ _ _ (Nat.succ_pos _)

section poll
variable (s : State) (a b : Word)

/-- The events before the poll: the warning for a lane count that does not exist (R122). -/
def laneWarning (a : Word) : List Event := if a = 1#32 ∨ a = 2#32 ∨ a = 4#32 then [] else [.log .invalidLanes]

theorem State.selected_underway : let accepted := s.accept .waitBusy a b
    Underway s (accepted.selectLanes accepted.cfg.map.busy) a b (laneWarning a) [] :=
  (Underway.accept s .waitBusy a b).selectLanes s.cfg.map.busy

theorem State.pollStart_trace : (s.accept .waitBusy a b).pollStart.trace = s.trace ++ laneWarning a :=
  (s.selected_underway a b).trace

theorem State.pollStart_cfg : (s.accept .waitBusy a b).pollStart.cfg = s.cfg := (s.selected_underway a b).cfg

/-- The deadline is T_BUSY_DEADLINE after the start of the poll (R197). -/
theorem State.pollStart_deadline : let start := (s.accept .waitBusy a b).pollStart
    start.deadline = start.now + s.cfg.tBusyDeadline := by
  intro start
  show start.now + start.cfg.tBusyDeadline = _
  rw [s.pollStart_cfg a b]

end poll

theorem readsOf_append (x y : List Event) : readsOf (x ++ y) = readsOf x ++ readsOf y := List.filterMap_append
theorem writesOf_append (x y : List Event) : writesOf (x ++ y) = writesOf x ++ writesOf y := List.filterMap_append

theorem readsOf_laneWarning (a : Word) : readsOf (laneWarning a) = [] := by
  unfold laneWarning; split <;> rfl

/-- Settles O42: the poll of `pollBusy_spec` from its start, its events by `pollBusy_pollTrace`. -/
theorem waitBusyOutcomes : Obligations.WaitBusyOutcomes := by
  intro s a b real sel
  let accepted := s.accept .waitBusy a b
  let start := accepted.pollStart
  let t := accepted.waitBusySeq
  have under := s.selected_underway a b
  obtain ⟨vs, last, new, polled⟩ := accepted.waitBusySeq_spec
  obtain ⟨poll, trace, quiet⟩ := State.pollBusy_pollTrace start.pc (start.cfg.tBusyDeadline + 1) start
  have cfg : start.cfg = s.cfg := s.pollStart_cfg a b
  have deadline : start.deadline = start.now + s.cfg.tBusyDeadline := s.pollStart_deadline a b
  have begun : s.now ≤ start.now := under.run.now
  have ends := (s.accept_runKept .waitBusy a b).trans_ends accepted.waitBusySeq_ends
  let tail : List Event := (if t.status = .busy then [.log .busy] else []) ++ [.ret t.status t.xR]
  have split : new = poll ++ tail := List.append_cancel_left (polled.tr.symm.trans trace)
  have noReads : readsOf tail = [] := by simp only [tail]; split_ifs <;> rfl
  have reads : readsOf new = readsOf poll := by rw [split, readsOf_append, noReads, List.append_nil]
  have writes : writesOf poll = [] := by
    have none := polled.w
    rw [split, writesOf_append] at none
    exact (List.append_eq_nil_iff.mp none).1
  refine ⟨t, poll, vs, last, exec_waitBusy_of_not_sim a b real, ?_, writes, quiet, ?_, polled.pv, ?_, polled.xM,
    ⟨ends.handle, polled.pc, polled.xA.trans under.xA, polled.xB.trans under.xB, begun.trans polled.b.now⟩,
    ends.capture, polled.aux.trans under.auxReadyAt, fun noReset =>
      (under.file noReset).trans under.cfg (polled.fk (under.noReset noReset))⟩
  · rw [polled.tr, split, s.pollStart_trace a b]
    simp only [List.append_assoc, laneWarning, tail]
  · rw [← reads, polled.r, cfg]
  · have outcome := polled.res
    rw [deadline] at outcome
    exact outcome.imp id fun ⟨status, xR, busy, late⟩ => ⟨status, xR, busy, (Nat.add_le_add_right begun _).trans late⟩

/-- Settles O44: the reads before the last each took T_POLL, and all of them ended before the deadline. -/
theorem waitBusyReadsAreBounded : Obligations.WaitBusyReadsAreBounded := by
  intro s t a b real h
  obtain rfl := exec_next_unique (exec_waitBusy_of_not_sim a b real) h
  obtain ⟨vs, last, new, polled⟩ := (s.accept .waitBusy a b).waitBusySeq_spec
  have cfg := s.pollStart_cfg a b
  have deadline := s.pollStart_deadline a b
  refine ⟨laneWarning a ++ new, ?_, fun two => ?_⟩
  · rw [polled.tr, s.pollStart_trace a b, List.append_assoc]
  · have count : (readsOf (laneWarning a ++ new)).length = vs.length + 1 := by
      rw [readsOf_append, readsOf_laneWarning, polled.r]; simp
    rw [count] at two ⊢
    rw [Nat.add_sub_cancel]
    obtain inTime | none := polled.len
    · rw [cfg, deadline] at inTime
      omega
    · rw [none] at two
      exact absurd two (by decide)

/-- A poll that finds no selected busy bit ends at its first read (R197). -/
theorem State.pollBusy_of_clear {s : State} (top : Pc) (n : Nat)
    (clear : s.envMove.core.phyifCtrl &&& s.xM = 0#32) :
    State.pollBusy top (n + 1) s = (s.readT .phyifCtrl).ret .ok 0#32 := by
  rw [State.pollBusy, State.readT_phyif, State.readT_xM]
  exact if_pos clear

/-- The warning of the selection takes one gap at most, so after a quiet one the register file stands. -/
theorem HwQuiet.selectLanes {n : Nat} {s : State} (quiet : HwQuiet (n + 1) s) (k : PerLane BitPos) :
    (s.selectLanes k).core = s.core ∧ HwQuiet n (s.selectLanes k) := by
  unfold State.selectLanes
  simp only
  split
  · exact ⟨rfl, quiet.mono (Nat.le_succ n)⟩
  · exact ⟨(s.logEvent_core .invalidLanes).trans quiet.envMove_core,
      quiet.head.2 _ (s.logEvent_envScript .invalidLanes)⟩

/-- Settles O43: HW is quiet until the first read, which therefore finds the word of before. -/
theorem waitBusyStartsClear : Obligations.WaitBusyStartsClear := by
  intro s a b real quiet idle
  let accepted := s.accept .waitBusy a b
  let start := accepted.pollStart
  have quiet' : HwQuiet 2 accepted := quiet
  obtain ⟨kept, still⟩ := quiet'.selectLanes s.cfg.map.busy
  have still' : HwQuiet 1 start := still
  have word : start.envMove.core.phyifCtrl = s.core.phyifCtrl :=
    congrArg CoreFile.phyifCtrl (still'.envMove_core.trans kept)
  have clear : start.envMove.core.phyifCtrl &&& start.xM = 0#32 := by rw [word]; exact idle
  have ends : accepted.waitBusySeq = (start.readT .phyifCtrl).ret .ok 0#32 := State.pollBusy_of_clear _ _ clear
  refine ⟨_, (exec_waitBusy_of_not_sim a b real).trans (congrArg _ ends), ?_, State.ret_status _ _ _,
    State.ret_xR _ _ _⟩
  have read : start.envMove.coreWord .phyifCtrl = s.core.phyifCtrl := word
  rw [State.ret_trace, State.readT_trace, s.pollStart_trace a b, s.pollStart_cfg a b, read]
  simp only [List.append_assoc]
  rfl

end Sys2Proof.Machine

/-! PROOFS: the rate translator. Each translator looks its operand up in the rows of a table, a source list zipped with a
target list; the two outcomes and the round trip are said once for both, over the lists. -/

namespace Sys2Proof

/-! ### The tables (R119, R124, R220, R221) -/

section table
variable {src dst : List Word} {a : Word}

/-- A table is searched from its first row on. -/
theorem lookup_cons_eq_ite (a x v : Word) (rows : List (Word × Word)) :
    List.lookup a ((x, v) :: rows) = if a = x then some v else rows.lookup a := by
  rw [List.lookup_cons]
  by_cases same : a = x
  · rw [if_pos same, beq_iff_eq.mpr same]
  · rw [if_neg same, beq_false_of_ne same]

/-- An operand of a table without double entries is found in its own row. -/
theorem lookup_zip_of_row (distinct : src.Nodup) {k : Nat} {v : Word} (row : src[k]? = some a)
    (target : dst[k]? = some v) : (src.zip dst).lookup a = some v := by
  induction src generalizing dst k with
  | nil => simp at row
  | cons x xs ih =>
    obtain ⟨headFresh, tailDistinct⟩ := List.nodup_cons.mp distinct
    cases dst with
    | nil => simp at target
    | cons y ys =>
      cases k with
      | zero =>
        obtain rfl : x = a := by simpa using row
        simpa using target
      | succ k =>
        have inTail : a ∈ xs := List.mem_of_getElem? row
        have notHead : a ≠ x := fun same => headFresh (same ▸ inTail)
        rw [List.zip_cons_cons, lookup_cons_eq_ite, if_neg notHead]
        exact ih tailDistinct row target

theorem lookup_zip_of_not_mem (outside : a ∉ src) : (src.zip dst).lookup a = none := by
  rw [List.lookup_eq_none_iff]
  intro p row
  have source : p.1 ∈ src := (List.of_mem_zip row).1
  exact bne_iff_ne.mpr fun same => outside (same ▸ source)

end table

/-- R117 (k): no rate and no bandwidth constant stands twice. -/
theorem Cfg.tables_distinct {c : Cfg} (wf : c.wf = true) : c.map.rates.Nodup ∧ c.map.bandwidths.Nodup := by
  have tables := Cfg.wf_rates wf
  simp only [RegMap.wfRates, Bool.and_eq_true, decide_eq_true_eq] at tables
  obtain ⟨⟨⟨rates, -⟩, bandwidths⟩, -⟩ := tables
  exact ⟨rates, bandwidths⟩

end Sys2Proof

namespace Sys2Proof.Machine

theorem bwOfRate_eq_lookup (m : RegMap) (a : Word) : bwOfRate m a = (m.rates.zip m.bandwidths).lookup a := by
  simp only [bwOfRate, RegMap.rates, RegMap.bandwidths, List.zip_cons_cons, List.zip_nil_right, lookup_cons_eq_ite,
    List.lookup_nil]

theorem rateOfBw_eq_lookup (m : RegMap) (a : Word) : rateOfBw m a = (m.bandwidths.zip m.rates).lookup a := by
  simp only [rateOfBw, RegMap.rates, RegMap.bandwidths, List.zip_cons_cons, List.zip_nil_right, lookup_cons_eq_ite,
    List.lookup_nil]

/-! ### RATE_TO_BW and BW_TO_RATE (R220, R221) -/

/-- One of the two translators, with its operands and its source and target lists. -/
def IsTranslator (m : RegMap) (a b : Word) (i : Instr) (src dst : List Word) : Prop :=
  (i = .rateToBw a b ∧ src = m.rates ∧ dst = m.bandwidths) ∨ (i = .bwToRate a b ∧ src = m.bandwidths ∧ dst = m.rates)

section translator
variable {s : State} {a b : Word} {i : Instr} {src dst : List Word}

/-- Either translator accepts its operands and ends by what it finds in its table. -/
theorem IsTranslator.exec_eq (translator : IsTranslator s.cfg.map a b i src dst) :
    ∃ op, exec i s = .next ((s.accept op a b).translated ((src.zip dst).lookup a)) := by
  obtain ⟨rfl, rfl, rfl⟩ | ⟨rfl, rfl, rfl⟩ := translator
  · exact ⟨.rateToBw, by rw [← bwOfRate_eq_lookup]; rfl⟩
  · exact ⟨.bwToRate, by rw [← rateOfBw_eq_lookup]; rfl⟩

theorem IsTranslator.distinct (translator : IsTranslator s.cfg.map a b i src dst) (wf : s.cfg.wf = true) : src.Nodup := by
  obtain ⟨rates, bandwidths⟩ := Cfg.tables_distinct wf
  obtain ⟨-, rfl, -⟩ | ⟨-, rfl, -⟩ := translator
  · exact rates
  · exact bandwidths

theorem IsTranslator.source_length {m : RegMap} (translator : IsTranslator m a b i src dst) : src.length = 4 := by
  obtain ⟨-, rfl, -⟩ | ⟨-, rfl, -⟩ := translator <;> rfl

theorem IsTranslator.target_length {m : RegMap} (translator : IsTranslator m a b i src dst) : dst.length = 4 := by
  obtain ⟨-, -, rfl⟩ | ⟨-, -, rfl⟩ := translator <;> rfl

end translator

/-- Settles O50: the operand is found in its own row, since no source stands twice, or in none. -/
theorem translatorsFollowTheirTables : Obligations.TranslatorsFollowTheirTables := by
  intro s a b i src dst wf translator
  change IsTranslator s.cfg.map a b i src dst at translator
  obtain ⟨op, ends⟩ := translator.exec_eq
  have under := Underway.accept s op a b
  constructor
  · intro k row
    have target : dst[k.val]? = some (dst[k.val]'(by simp [translator.target_length])) := List.getElem?_eq_getElem _
    rw [lookup_zip_of_row (translator.distinct wf) row target] at ends
    obtain ⟨trace, spec⟩ := under.ends rfl rfl .ok _
    exact ⟨_, _, ends, target, trace, spec⟩
  · intro outside
    rw [lookup_zip_of_not_mem outside] at ends
    exact ⟨_, ends, (under.logEvent .invalidArgument).ends (State.logEvent_xT _ _) (State.logEvent_xM _ _)
      .invalidArgument s.cfg.map.sentinel⟩

/-! ### The round trips (R222) -/

/-- A translator followed by the one of the opposite table goes to row `k` of the targets and back to row `k`. -/
theorem IsTranslator.roundTrip {s t u : State} {x b c : Word} {i j : Instr} {src dst : List Word}
    (wf : s.cfg.wf = true) (there : IsTranslator s.cfg.map x b i src dst)
    (back : IsTranslator s.cfg.map t.xR c j dst src) (mem : x ∈ src) (first : exec i s = .next t)
    (second : exec j t = .next u) : u.xR = x ∧ u.status = .ok := by
  obtain ⟨k, inRange, rfl⟩ := List.mem_iff_getElem.mp mem
  have row : src[k]? = some src[k] := List.getElem?_eq_getElem inRange
  have small : k < 4 := there.source_length ▸ inRange
  obtain ⟨t', v, ht, target, -, -, xR, -, -, frame, -⟩ :=
    (translatorsFollowTheirTables s _ b i src dst wf there).1 ⟨k, small⟩ row
  obtain rfl := exec_next_unique first ht
  rw [← frame.cfg] at wf back
  rw [← xR] at target
  obtain ⟨u', w, hu, source, -, status, xR', -⟩ :=
    (translatorsFollowTheirTables t _ c j dst src wf back).1 ⟨k, small⟩ target
  obtain rfl := exec_next_unique second hu
  exact ⟨xR'.trans (Option.some.inj (source.symm.trans row)), status⟩

/-- Settles O51: either translation first, the opposite table brings the entry back. -/
theorem translatorRoundTrip : Obligations.TranslatorRoundTrip := by
  intro s t u x b c wf
  constructor
  · exact IsTranslator.roundTrip wf (.inl ⟨rfl, rfl, rfl⟩) (.inr ⟨rfl, rfl, rfl⟩)
  · exact IsTranslator.roundTrip wf (.inr ⟨rfl, rfl, rfl⟩) (.inl ⟨rfl, rfl, rfl⟩)

end Sys2Proof.Machine

/-! PROOFS: the exceptions. Which sub-event latches the top-level hot-plug-detect source, what each interrupt mask gates,
and how a command that ends in an error ends: with a status of its own kind, and without a register write. -/

namespace Sys2Proof

/-- A mask that is set reads back whole. -/
theorem or_and_self_right (w m : Word) : (w ||| m) &&& m = m := by
  ext i hi
  simpa using Or.inr

end Sys2Proof

namespace Sys2Proof.Machine

/-! ### The latch of the hot-plug-detect source (R242) -/

/-- The latch itself makes no sub-event active, and none inactive: it writes ISTS alone. -/
@[simp] theorem State.latchHpd_hpdActive (s : State) (was : Bool) : (s.latchHpd was).hpdActive = s.hpdActive := by
  unfold State.latchHpd
  split <;> rfl

/-- With no sub-event active before and one active now, the latch leaves the source set: it is one of all sources. -/
theorem State.latchHpd_sets_ienHpd {s : State} (wf : s.cfg.wf = true) (active : s.hpdActive = true) :
    bitAt (s.latchHpd false).core.ists s.cfg.map.ienHpd = true := by
  have latched : (s.latchHpd false).core.ists = s.core.ists ||| (bitMask s.cfg.map.ienHpd &&& s.cfg.map.ienAll) := by
    simp [State.latchHpd, active]
  rw [latched, Cfg.ienHpd_inside wf, bitAt_or, bitAt_bitMask_self, Bool.or_true]

/-- A step of HW is some change of the registers, then the latch, then the sample of the lines. -/
theorem State.hwStep_eq_latchHpd (s : State) (h : HwStep) :
    ∃ u : State, u.cfg = s.cfg ∧ s.hwStep h = (u.latchHpd s.hpdActive).sampled := by
  unfold State.hwStep
  cases h.resetFill with
  | some fill => exact ⟨(s.resetFilled fill).hwDriven h, rfl, rfl⟩
  | none => exact ⟨s.hwDriven h, rfl, rfl⟩

/-- Settles O13: a step of HW and a store both end in the latch, which compares with the state before. -/
theorem hotPlugEventLatchesTopLevel : Obligations.HotPlugEventLatchesTopLevel := by
  intro s wf inactive
  refine ⟨fun h active => ?_, fun r v active => ?_⟩
  · obtain ⟨u, cfg, step⟩ := s.hwStep_eq_latchHpd h
    rw [step, inactive, State.sampled_hpdActive, State.latchHpd_hpdActive] at active
    rw [step, inactive, State.sampled_core, ← cfg]
    exact State.latchHpd_sets_ienHpd (cfg ▸ wf) active
  · rw [State.storeCore, State.latchHpd_hpdActive] at active
    rw [State.storeCore, inactive]
    exact State.latchHpd_sets_ienHpd (s := s.withStored _ _ _) wf active

/-! ### What each mask gates (R239, R242) -/

/-- `wrap_mask` closes the wrapper, in either polarity (R155). -/
theorem State.wrapOpen_eq_false_of_wrapMask {s : State} {v : Word}
    (masked : s.core.wrapIntMask = wrapMask s.cfg.map v) : s.wrapOpen = false := by
  rw [State.wrapOpen, masked, wrapMask]
  cases s.cfg.map.wrapSetIsUnmask with
  | true => simp [and_not_and_self]
  | false =>
    simp [or_and_self_right]

/-- A sub-event is active only if it is pending and its own enable bit is set (log 12). -/
theorem State.hpdActive_eq_false_of_enables {s : State}
    (irq : bitAt s.core.hpdsts s.cfg.map.hpdIrq = true → bitAt s.core.hpdIen s.cfg.map.hpdIenIrq = false)
    (plug : bitAt s.core.hpdsts s.cfg.map.hpdHotPlug = true → bitAt s.core.hpdIen s.cfg.map.hpdIenHotPlug = false)
    (unplug : bitAt s.core.hpdsts s.cfg.map.hpdHotUnplug = true →
      bitAt s.core.hpdIen s.cfg.map.hpdIenHotUnplug = false) : s.hpdActive = false := by
  rw [State.hpdActive, Bool.and_eq_false_imp.2 irq, Bool.and_eq_false_imp.2 plug, Bool.and_eq_false_imp.2 unplug]
  rfl

/-- Settles O24: each line is a conjunction of its gates, and each clause closes one of them. -/
theorem masksGateTheInterruptOutput : Obligations.MasksGateTheInterruptOutput := by
  intro s
  refine ⟨State.irqOut_eq_false_of_ien, fun v masked => ?_, State.hpdActive_eq_false_of_enables, ?_⟩
  · rw [State.irqOut, State.wrapOpen_eq_false_of_wrapMask masked, Bool.and_false]
  · rintro (masked | absent)
    · simp [State.cpIrqOut, State.cpMasked, masked]
    · simp [State.cpIrqOut, absent]

/-! ### How a command that ends in an error ends (R232, R235, R237) -/

/-- The errors that a command can end in (R232, R237). -/
inductive CanReport : Instr → Status → Prop where
  | busy (a b : Word) : CanReport (.waitBusy a b) .busy
  | identityMismatch (a b : Word) : CanReport (.checkCoreId a b) .identityMismatch
  | badRate (a b : Word) : CanReport (.rateToBw a b) .invalidArgument
  | badBandwidth (a b : Word) : CanReport (.bwToRate a b) .invalidArgument
  | refusedRead (a b : Word) : CanReport (.regRead a b) .refused
  | refusedWrite (a b : Word) : CanReport (.regWrite a b) .refused

/-- The entries that `t` adds to the trace of `s` hold no register write (R235). -/
def WriteFree (s t : State) : Prop := ∃ new, t.trace = s.trace ++ new ∧ writesOf new = []

/-- Command `i` from `s` has ended in `t`: OK, or in an error of its own without a register write. -/
def EndsOkOrClean (i : Instr) (s t : State) : Prop := t.status = .ok ∨ (CanReport i t.status ∧ WriteFree s t)

section ends
variable {i : Instr} {s u t : State}

theorem WriteFree.trans (h : WriteFree s u) (h' : WriteFree u t) : WriteFree s t := by
  obtain ⟨new, trace, none⟩ := h
  obtain ⟨new', trace', none'⟩ := h'
  exact ⟨new ++ new', by rw [trace', trace, List.append_assoc], by rw [writesOf_append, none, none']; rfl⟩

theorem State.readT_writeFree (s : State) (r : CoreReg) : WriteFree s (s.readT r) := ⟨_, s.readT_trace r, rfl⟩

/-- A `ret` with OK, whatever the command did before. -/
theorem EndsOkOrClean.ret (u : State) (v : Word) : EndsOkOrClean i s (u.ret .ok v) := .inl (u.ret_status .ok v)

/-- A propagated error adds its event and its `ret`, so it is clean if no write came before (R235). -/
theorem EndsOkOrClean.raiseError {st : Status} (can : CanReport i st) (clean : WriteFree s u) (id : LogId) (v : Word) :
    EndsOkOrClean i s (u.raiseError id st v) :=
  .inr ⟨(u.raiseError_status id st v).symm ▸ can, clean.trans ⟨_, u.raiseError_trace id st v, rfl⟩⟩

theorem EndsOkOrClean.ite {p : Prop} [Decidable p] (h : EndsOkOrClean i s t) (h' : EndsOkOrClean i s u) :
    EndsOkOrClean i s (if p then t else u) := by
  split
  · exact h
  · exact h'

end ends

section commands
variable (a b : Word) (s : State)

/-- Acceptance adds nothing to the trace (R101). -/
theorem State.accept_writeFree (op : Op) : WriteFree s (s.accept op a b) := ⟨[], (List.append_nil _).symm, rfl⟩

/-- An equalization setter logs what it does not take, and ends OK all the same (R199, R200). -/
theorem State.setLevel_status (fields : PerLane Field) : (s.setLevel fields).status = .ok := by
  unfold State.setLevel
  split
  · exact State.ret_status _ _ _
  · exact State.ret_status _ _ _

/-- A translation ends with the value found, or with InvalidArgument (R220, R221). -/
theorem State.translated_endsOkOrClean {i : Instr} (op : Op) (can : CanReport i .invalidArgument) (found : Option Word) :
    EndsOkOrClean i s ((s.accept op a b).translated found) := by
  cases found with
  | some v => exact .ret _ v
  | none => exact .raiseError can (s.accept_writeFree a b op) _ _

/-- The poll reads and waits, with the warning of the lane selection before it (R197). -/
theorem State.waitBusySeq_endsOkOrClean : EndsOkOrClean (.waitBusy a b) s (s.accept .waitBusy a b).waitBusySeq := by
  obtain ⟨_, _, new, polled⟩ := (s.accept .waitBusy a b).waitBusySeq_spec
  obtain ⟨ok, -⟩ | ⟨busy, -⟩ := polled.res
  · exact .inl ok
  · have warned : WriteFree s (s.accept .waitBusy a b).pollStart :=
      ⟨laneWarning a, s.pollStart_trace a b, by unfold laneWarning; split <;> rfl⟩
    exact .inr ⟨busy ▸ .busy a b, warned.trans ⟨new, polled.tr, polled.w⟩⟩

theorem execRegRead_endsOkOrClean :
    ∃ t, execRegRead a b s = .next t ∧ EndsOkOrClean (.regRead a b) s t := by
  simp only [execRegRead]
  split
  · exact ⟨_, rfl, .ret _ _⟩
  · exact ⟨_, rfl, .raiseError (.refusedRead a b) (s.accept_writeFree a b .regRead) _ _⟩

theorem execRegWrite_endsOkOrClean :
    ∃ t, execRegWrite a b s = .next t ∧ EndsOkOrClean (.regWrite a b) s t := by
  simp only [execRegWrite]
  split
  · exact ⟨_, rfl, .ret _ _⟩
  · exact ⟨_, rfl, .raiseError (.refusedWrite a b) (s.accept_writeFree a b .regWrite) _ _⟩

/-- A lane count that does not exist is logged, and SET_LANES ends OK all the same (R193). -/
theorem execSetLanes_endsOkOrClean :
    ∃ t, execSetLanes a b s = .next t ∧ EndsOkOrClean (.setLanes a b) s t := by
  simp only [execSetLanes]
  split
  · exact ⟨_, rfl, .ret _ _⟩
  · exact ⟨_, rfl, .ret _ _⟩

end commands

/-- Every command ends OK, or in an error of its own without a register write. -/
theorem exec_endsOkOrClean (i : Instr) (s : State) : ∃ t, exec i s = .next t ∧ EndsOkOrClean i s t := by
  cases i with
  | regRead a b => exact execRegRead_endsOkOrClean a b s
  | regWrite a b => exact execRegWrite_endsOkOrClean a b s
  | setLanes a b => exact execSetLanes_endsOkOrClean a b s
  | checkCoreId a b =>
    have read := (s.accept_writeFree a b .checkCoreId).trans (State.readT_writeFree _ .id)
    exact ⟨_, rfl, .ite (.ret _ _) (.raiseError (.identityMismatch a b) read _ _)⟩
  | waitBusy a b => exact ⟨_, rfl, .ite (.ret _ _) (s.waitBusySeq_endsOkOrClean a b)⟩
  | rateToBw a b => exact ⟨_, rfl, s.translated_endsOkOrClean a b _ (.badRate a b) _⟩
  | bwToRate a b => exact ⟨_, rfl, s.translated_endsOkOrClean a b _ (.badBandwidth a b) _⟩
  | setPreEmphasis | setVswing => exact ⟨_, rfl, .inl (State.setLevel_status _ _)⟩
  | intrEn | intrDis | globalIntrEn | globalIntrDis | globalIntrClear | softReset | softResetAll | phySoftReset
  | typecAck | auxReset | coreInit | coreDeinit | setLanesPower | getLanes | setRate | getRate | setPattern
  | enableXmit => exact ⟨_, rfl, .ret _ _⟩

/-- What a command that did not end OK has done. -/
theorem exec_error {i : Instr} {s t : State} (h : exec i s = .next t) (error : t.status ≠ .ok) :
    CanReport i t.status ∧ WriteFree s t := by
  obtain ⟨u, hu, ends⟩ := exec_endsOkOrClean i s
  obtain rfl := exec_next_unique hu h
  exact ends.resolve_left error

/-- Settles O53: the command is one of those that can report the status. -/
theorem onlyTheseCommandsReportErrors : Obligations.OnlyTheseCommandsReportErrors := by
  intro i s t h
  have reports {st : Status} (status : t.status = st) (error : st ≠ .ok) : CanReport i st :=
    status ▸ (exec_error h (status ▸ error)).1
  refine ⟨fun status => ?_, fun status => ?_, fun status => ?_, fun status => ?_⟩
  · cases reports status (by decide) with
    | busy a b => exact ⟨a, b, rfl⟩
  · cases reports status (by decide) with
    | identityMismatch a b => exact ⟨a, b, rfl⟩
  · cases reports status (by decide) with
    | badRate a b => exact ⟨a, b, .inl rfl⟩
    | badBandwidth a b => exact ⟨a, b, .inr rfl⟩
  · cases reports status (by decide) with
    | refusedRead a b => exact ⟨a, b, .inl rfl⟩
    | refusedWrite a b => exact ⟨a, b, .inr rfl⟩

/-- Settles O54: an error is raised before anything is written. -/
theorem errorsLeaveNoWrites : Obligations.ErrorsLeaveNoWrites :=
  fun _ _ _ h error => (exec_error h error).2

end Sys2Proof.Machine

/-! PROOFS: every command ends by its `ret`, and what a host action does between commands: a command on a detached
handle, an attach, a detach. -/

namespace Sys2Proof.Machine

/-! ### Every command ends by a `ret` (R22, R28, R297) -/

/-- From `s` the clock and the trace went on to a state in which a `ret` left `t` (R11, R28). -/
def EndsByRet (s t : State) : Prop := ∃ u st v, Advances s u ∧ t = u.ret st v

section ends
variable {s u t : State}

theorem Advances.endsByRet (h : Advances s u) (st : Status) (v : Word) : EndsByRet s (u.ret st v) :=
  ⟨u, st, v, h, rfl⟩

/-- A propagated error is its event, then a `ret` (R235). -/
theorem Advances.endsByError (h : Advances s u) (id : LogId) (st : Status) (v : Word) :
    EndsByRet s (u.raiseError id st v) := (h.logEvent id).endsByRet st v

theorem Advances.trans_endsByRet (h : Advances s u) (h' : EndsByRet u t) : EndsByRet s t := by
  obtain ⟨w, st, v, advances, rfl⟩ := h'
  exact (h.trans advances).endsByRet st v

theorem EndsByRet.ite {p : Prop} [Decidable p] (h : EndsByRet s t) (h' : EndsByRet s u) :
    EndsByRet s (if p then t else u) := by
  split
  · exact h
  · exact h'

theorem EndsByRet.now (h : EndsByRet s t) : s.now ≤ t.now := by
  obtain ⟨u, st, v, advances, rfl⟩ := h
  exact advances.now.trans (u.le_ret_now st v)

/-- The last trace entry is the `ret` of the status and the value that are then readable (R24, R28). -/
theorem EndsByRet.trace (h : EndsByRet s t) : ∃ new, t.trace = s.trace ++ new ++ [.ret t.status t.xR] := by
  obtain ⟨u, st, v, advances, rfl⟩ := h
  obtain ⟨new, trace⟩ := advances.trace
  exact ⟨new, by rw [State.ret_trace, State.ret_status, State.ret_xR, trace]⟩

end ends

section sequences
variable (s : State)

theorem State.illegalCommand_endsByRet : EndsByRet s s.illegalCommand := (Advances.refl s).endsByError _ _ _
theorem State.pollTimeout_endsByRet : EndsByRet s s.pollTimeout := (Advances.refl s).endsByError _ _ _

/-- The busy poll ends at a clear read or at the deadline, however large its budget of reads (R197, log 14). -/
theorem State.pollBusy_endsByRet (top : Pc) (n : Nat) : EndsByRet s (State.pollBusy top n s) := by
  induction n generalizing s with
  | zero => exact ((Advances.refl s).withNow (le_max_left _ _)).trans_endsByRet (State.pollTimeout_endsByRet _)
  | succ n ih =>
    have read := (Advances.refl s).readT .phyifCtrl
    have waited := read.wait (s.readT .phyifCtrl).cfg.tPoll
    exact (read.endsByRet _ _).ite
      ((waited.trans_endsByRet (State.pollTimeout_endsByRet _)).ite ((waited.withPc top).trans_endsByRet (ih _)))

theorem State.waitBusySeq_endsByRet : EndsByRet s s.waitBusySeq :=
  (((Advances.refl s).selectLanes _).withDeadline _).trans_endsByRet (State.pollBusy_endsByRet _ _ _)

theorem State.setLevel_endsByRet (fields : PerLane Field) : EndsByRet s (s.setLevel fields) := by
  have clamped := (Advances.refl s).ite_then (p := aboveThree s.xB = true)
    (((Advances.refl s).logEvent .levelClamped).withB (clamp3 s.xB))
  exact (((Advances.refl s).logEvent _).endsByRet _ _).ite ((clamped.rmw _ _).endsByRet _ _)

theorem State.translated_endsByRet (found : Option Word) : EndsByRet s (s.translated found) := by
  cases found with
  | some v => exact (Advances.refl s).endsByRet _ _
  | none => exact (Advances.refl s).endsByError _ _ _

variable (a b : Word)

theorem execRegRead_endsByRet : ∃ t, execRegRead a b s = .next t ∧ EndsByRet s t := by
  have accepted := (Advances.refl s).accept .regRead a b
  simp only [execRegRead]
  split
  · exact ⟨_, rfl, (accepted.readT _).endsByRet _ _⟩
  · exact ⟨_, rfl, accepted.trans_endsByRet (State.illegalCommand_endsByRet _)⟩

theorem execRegWrite_endsByRet : ∃ t, execRegWrite a b s = .next t ∧ EndsByRet s t := by
  have accepted := (Advances.refl s).accept .regWrite a b
  simp only [execRegWrite]
  split
  · exact ⟨_, rfl, (accepted.memWrite _ _).endsByRet _ _⟩
  · exact ⟨_, rfl, accepted.trans_endsByRet (State.illegalCommand_endsByRet _)⟩

theorem execSetLanes_endsByRet : ∃ t, execSetLanes a b s = .next t ∧ EndsByRet s t := by
  have accepted := (Advances.refl s).accept .setLanes a b
  simp only [execSetLanes]
  split
  · exact ⟨_, rfl, (accepted.rmw _ _).endsByRet _ _⟩
  · exact ⟨_, rfl, (accepted.logEvent _).endsByRet _ _⟩

end sequences

/-- Every command is a micro-sequence that advances, then one `ret`, an error's included (R22, R235). -/
theorem exec_endsByRet (i : Instr) (s : State) : ∃ t, exec i s = .next t ∧ EndsByRet s t := by
  have accepted (op : Op) (a b : Word) : Advances s (s.accept op a b) := (Advances.refl s).accept op a b
  have sequence {op : Op} {a b : Word} {seq : State → State} (advances : ∀ x, Advances x (seq x)) :
      EndsByRet s ((seq (s.accept op a b)).ret .ok 0#32) := ((accepted op a b).trans (advances _)).endsByRet _ _
  cases i with
  | regRead a b => exact execRegRead_endsByRet s a b
  | regWrite a b => exact execRegWrite_endsByRet s a b
  | intrEn a b => exact ⟨_, rfl, sequence State.intrEnSeq_advances⟩
  | intrDis a b => exact ⟨_, rfl, sequence State.intrDisSeq_advances⟩
  | globalIntrEn a b => exact ⟨_, rfl, sequence State.globalIntrEnSeq_advances⟩
  | globalIntrDis a b => exact ⟨_, rfl, sequence State.globalIntrDisSeq_advances⟩
  | globalIntrClear a b => exact ⟨_, rfl, (((accepted _ a b).memWrite _ _).memWrite _ _).endsByRet _ _⟩
  | softReset a b => exact ⟨_, rfl, sequence State.softResetSeq_advances⟩
  | softResetAll a b => exact ⟨_, rfl, sequence State.softResetAllSeq_advances⟩
  | phySoftReset a b => exact ⟨_, rfl, sequence State.phySoftResetSeq_advances⟩
  | typecAck a b => exact ⟨_, rfl, sequence State.typecAckSeq_advances⟩
  | auxReset a b => exact ⟨_, rfl, sequence State.auxResetSeq_advances⟩
  | coreInit a b => exact ⟨_, rfl, sequence State.coreInitSeq_advances⟩
  | checkCoreId a b =>
    have read := (accepted .checkCoreId a b).readT .id
    exact ⟨_, rfl, (read.endsByRet _ _).ite (read.endsByError _ _ _)⟩
  | coreDeinit a b => exact ⟨_, rfl, sequence State.coreDeinitSeq_advances⟩
  | setLanesPower a b => exact ⟨_, rfl, sequence State.setLanesPowerSeq_advances⟩
  | getLanes a b => exact ⟨_, rfl, ((accepted _ a b).readT _).endsByRet _ _⟩
  | setLanes a b => exact execSetLanes_endsByRet s a b
  | setRate a b =>
    have checked := (accepted .setRate a b).ite_else (p := validRate s.cfg.map a = true)
      ((Advances.refl _).logEvent .invalidRate)
    exact ⟨_, rfl, (checked.rmw _ _).endsByRet _ _⟩
  | getRate a b => exact ⟨_, rfl, ((accepted _ a b).readT _).endsByRet _ _⟩
  | waitBusy a b =>
    have start := accepted .waitBusy a b
    exact ⟨_, rfl, (start.endsByRet _ _).ite (start.trans_endsByRet (State.waitBusySeq_endsByRet _))⟩
  | setPreEmphasis a b => exact ⟨_, rfl, (accepted _ a b).trans_endsByRet (State.setLevel_endsByRet _ _)⟩
  | setVswing a b => exact ⟨_, rfl, (accepted _ a b).trans_endsByRet (State.setLevel_endsByRet _ _)⟩
  | setPattern a b => exact ⟨_, rfl, ((accepted _ a b).rmw _ _).endsByRet _ _⟩
  | enableXmit a b => exact ⟨_, rfl, (((accepted _ a b).selectLanes _).rmwT _ _).endsByRet _ _⟩
  | rateToBw a b => exact ⟨_, rfl, (accepted _ a b).trans_endsByRet (State.translated_endsByRet _ _)⟩
  | bwToRate a b => exact ⟨_, rfl, (accepted _ a b).trans_endsByRet (State.translated_endsByRet _ _)⟩

/-- Settles O52: the command ends by a `ret`, and `exec_ends` says that it ends idle with the handle it began with. -/
theorem everyCommandEndsAtItsRet : Obligations.EveryCommandEndsAtItsRet := by
  intro i s
  obtain ⟨t, ht, ended⟩ := exec_endsByRet i s
  obtain ⟨u, hu, idle, handle⟩ := exec_ends i s
  obtain rfl := exec_next_unique ht hu
  obtain ⟨new, trace⟩ := ended.trace
  exact ⟨t, new, ht, idle, handle, ended.now, trace⟩

/-! ### The host actions between commands (R271 to R273) -/

/-- Settles O7: the refusal is a `ret` alone, after one gap of the environment. -/
theorem detachedHandleRefusesCommands : Obligations.DetachedHandleRefusesCommands := by
  intro s w rest hq detached idle
  let queued := s.withHost rest
  let t := queued.refuseDetached
  have ended := (RunKept.refl queued).trans (queued.ret_runKept .refused 0#32)
  obtain ⟨attached, -, cfg, host, -⟩ := ended.hk
  refine ⟨t, (step_of_host_cons hq).trans (State.hostCommand_detached w idle detached), queued.ret_status _ _,
    attached.trans detached, queued.ret_pc _ _, host, queued.ret_xA _ _, queued.ret_xB _ _, cfg,
    ⟨ended.ck, ended.dl, queued.ret_auxReadyAt _ _⟩, ⟨[.ret .refused 0#32], queued.ret_trace _ _, rfl, rfl⟩,
    queued.ret_fileKept [] .refused 0#32⟩

/-- Settles O9: the attach binds the handle and redraws the sequencer and capture registers alone. -/
theorem attachBindsHandleOnly : Obligations.AttachBindsHandleOnly := by
  intro s b c rest hq idle detached wf
  exact ⟨(s.withHost rest).attach b c,
    (step_of_host_cons hq).trans (State.hostAttach_wf b c idle detached wf),
    rfl, rfl, rfl, rfl, rfl, rfl, rfl, rfl, rfl, rfl, rfl, rfl, rfl⟩

/-- Settles O10: the host port's detach between commands, with the queue moved on. -/
theorem detachKeepsHardware : Obligations.DetachKeepsHardware :=
  fun _ _ hq idle => (step_of_host_cons hq).trans (State.hostDetach_idle idle)

end Sys2Proof.Machine

/-! PROOFS: what a step of HW leaves while a reset is held. -/

namespace Sys2Proof

/-- Outside its mask a blend is the old word. -/
theorem blend_outside (m old new : Word) : blend m old new &&& ~~~m = old &&& ~~~m := by
  rw [and_mask_eq_iff]
  intro i hi outside
  have clear : m.getLsbD i = false := by simpa [hi, -BitVec.getLsbD_eq_getElem] using outside
  rw [blend_getLsbD _ _ _ _ hi, if_neg (by simp [clear])]

/-- Words that agree under one mask with a word between them, and under another, agree under both masks at once. -/
theorem and_and_congr {x y z m k : Word} (before : y &&& k = x &&& k) (after : z &&& m = y &&& m) :
    z &&& (m &&& k) = x &&& (m &&& k) :=
  calc z &&& (m &&& k)
    _ = y &&& (m &&& k) := by rw [← BitVec.and_assoc, after, BitVec.and_assoc]
    _ = x &&& (m &&& k) := by rw [BitVec.and_comm m, ← BitVec.and_assoc, before, BitVec.and_assoc]

end Sys2Proof

namespace Sys2Proof.Machine

/-! ### A step of HW under a held reset (R276, R277) -/

/-- A held reset fills at most the bits that the domain of the held bits covers (R276). -/
theorem State.resetFilled_outside (s : State) (fill : ResetFill) (r : CoreReg) :
    (s.resetFilled fill).coreWord r &&& ~~~s.cfg.fillMask s.held r = s.coreWord r &&& ~~~s.cfg.fillMask s.held r := by
  by_cases hr : stored r
  · rw [State.coreWord_of_stored _ _ hr, State.coreWord_of_stored _ _ hr, State.resetFilled_core, CoreFile.resetFilled,
      CoreFile.get_ofFn _ _ hr, blend_outside]
  · have const : r = .verNumber ∨ r = .verType ∨ r = .id := by simpa [stored, not_or, or_iff_not_imp_left] using hr
    obtain rfl | rfl | rfl := const <;> rfl

/-- A step of HW is the effect of a held reset, then a step that keeps every register as HW does without one. -/
theorem State.hwStep_eq_filled (s : State) (h : HwStep) :
    ∃ filled : State, filled.cfg = s.cfg
      ∧ (∀ r, filled.coreWord r &&& ~~~s.cfg.fillMask s.held r = s.coreWord r &&& ~~~s.cfg.fillMask s.held r)
      ∧ ∀ r, RegKept filled (s.hwStep h) r := by
  have driven (filled : State) (r : CoreReg) :
      RegKept filled (((filled.hwDriven h).latchHpd s.hpdActive).sampled) r :=
    (filled.hwDriven_regKept h r).trans (by rfl) (State.latchHpd_regKept _ _ r)
  unfold State.hwStep
  cases h.resetFill with
  | some fill => exact ⟨s.resetFilled fill, rfl, s.resetFilled_outside fill, driven _⟩
  | none => exact ⟨s, rfl, fun _ => rfl, driven s⟩

/-- Settles O12: SRST_CTRL is in no domain, the identity registers are configuration, and an uncovered RW bit is
neither filled nor driven. -/
theorem heldResetStaysInItsDomain : Obligations.HeldResetStaysInItsDomain := by
  intro s h
  refine ⟨s.hwStep_srstCtrl h, ?_, fun r => ?_⟩
  · rintro r (rfl | rfl | rfl) <;> simp [State.coreWord]
  · obtain ⟨filled, cfg, outside, kept⟩ := s.hwStep_eq_filled h
    have undriven := (kept r).1
    rw [cfg] at undriven
    exact and_and_congr (outside r) undriven

end Sys2Proof.Machine

/-! PROOFS: what CORE_INIT establishes on a well-formed map. Its reset leaves nothing held, so each later stage keeps
what an earlier one wrote, but for what HW drives and fires. -/

namespace Sys2Proof

/-- The two Type-C bits are distinct (R117 g). -/
theorem Cfg.typec_distinct {c : Cfg} (wf : c.wf = true) : c.map.typecDisableAck ≠ c.map.typecDisableStatus :=
  of_decide_eq_true (Cfg.wf_typec wf)

end Sys2Proof

namespace Sys2Proof.Machine

/-! ### Stages with no reset held -/

/-- Stages ran from `s` to `t`: no valid reset bit is held at `t`, and at most the registers `l` were written. -/
structure WritesOnly (s t : State) (l : List CoreReg) : Prop where
  cfg : t.cfg = s.cfg
  noReset : t.held = 0#32
  file : FileKept s t l

section stages
variable {s t u : State} {l : List CoreReg}

theorem WritesOnly.of_fileKept (cfg : t.cfg = s.cfg) (noReset : s.held = 0#32) (file : FileKept s t l)
    (spared : CoreReg.srstCtrl ∉ l) : WritesOnly s t l :=
  ⟨cfg, file.held_eq_zero cfg spared noReset, file⟩

theorem WritesOnly.trans (h : WritesOnly s t l) (h' : WritesOnly t u l) : WritesOnly s u l :=
  ⟨h'.cfg.trans h.cfg, h'.noReset, h.file.trans h.cfg h'.file⟩

theorem WritesOnly.mono (h : WritesOnly s t l) {l' : List CoreReg} (more : ∀ r ∈ l, r ∈ l') : WritesOnly s t l' :=
  ⟨h.cfg, h.noReset, h.file.mono more⟩

theorem WritesOnly.regKept (h : WritesOnly s t l) {r : CoreReg} (other : r ∉ l) : RegKept s t r := h.file.1 r other

theorem State.memWrite_writesOnly (noReset : s.held = 0#32) {r : CoreReg} (v : Word) (other : r ≠ .srstCtrl) :
    WritesOnly s (s.memWrite r v) [r] :=
  .of_fileKept (s.memWrite_cfg r v) noReset (s.memWrite_fileKept [r] r v noReset (by simp)) (by simpa using other.symm)

theorem State.rmwT_writesOnly (noReset : s.held = 0#32) {r : CoreReg} (f : Word → Word) (other : r ≠ .srstCtrl) :
    WritesOnly s (s.rmwT r f) [r] :=
  .of_fileKept (s.rmwT_cfg r f) noReset (s.rmwT_fileKept [r] r f noReset (by simp)) (by simpa using other.symm)

theorem State.ret_writesOnly (noReset : s.held = 0#32) (st : Status) (v : Word) : WritesOnly s (s.ret st v) [] :=
  .of_fileKept (s.ret_cfg st v) noReset (s.ret_fileKept [] st v noReset) (by simp)

/-- In the stored bits of its register a read-modify-write leaves the function of the word read (R73, R80). -/
theorem State.rmwT_storedBits (s : State) {r : CoreReg} (f : Word → Word) (hr : stored r) :
    (s.rmwT r f).coreWord r &&& storedBits s.cfg.map r = f (s.envMove.coreWord r) &&& storedBits s.cfg.map r := by
  let formed := (s.readT r).withT (f (s.readT r).xT)
  have written := formed.memWrite_storedBits r formed.xT hr
  simpa [formed, State.rmwT] using written

/-- A read whose word is kept outside the register file writes nothing (R72). -/
theorem State.memRead_writesOnly (noReset : s.held = 0#32) (r : CoreReg) {keep : State → Word → State}
    (cfg : ∀ x v, (keep x v).cfg = x.cfg) (core : ∀ x v, (keep x v).core = x.core)
    (phycr : ∀ x v, (keep x v).phycr4 = x.phycr4) : WritesOnly s (s.memRead r keep) [] := by
  have same : (s.memRead r keep).cfg = s.cfg := by simp [State.memRead, cfg]
  have word (q : CoreReg) : (s.memRead r keep).coreWord q = s.envMove.coreWord q :=
    State.coreWord_congr _ _ q (by simp [State.memRead, cfg]) (by simp [State.memRead, core])
  refine .of_fileKept same noReset ⟨fun q _ => ?_, ?_⟩ (by simp)
  · rw [RegKept, word]; exact s.envMove_regKept noReset q
  · simp [State.memRead, phycr, s.envMove_phycr4 noReset]

/-- A nested call writes what its body writes (R23). -/
theorem State.callOp_writesOnly {op : Op} {a b : Word} {body : State → State}
    (ran : WritesOnly (s.pushFrame op a b) (body (s.pushFrame op a b)) l) :
    WritesOnly s (s.callOp op a b body) l := by
  obtain ⟨cfg, noReset, regs, phycr⟩ := ran
  refine ⟨(State.callOp_cfg _ _ _ _ _).trans cfg, (State.callOp_held _ _ _ _ _).trans noReset, fun r hr => ?_,
    (State.callOp_phycr4 _ _ _ _ _).trans phycr⟩
  rw [RegKept, State.callOp_coreWord]
  exact regs r hr

end stages

/-! ### The stages of CORE_INIT (R176, R280) -/

section coreInit
variable {s t : State} {c : Cfg}

/-- Stage 1 leaves no valid reset bit held. -/
theorem State.callOp_softResetAllSeq_held (s : State) :
    (s.callOp .softResetAll 0#32 0#32 State.softResetAllSeq).held = 0#32 := by
  obtain ⟨_, _, -, -, -, srst⟩ := s.callOp_softResetAllSeq_spec
  have cfg := ((Advances.refl s).callOp .softResetAll 0#32 0#32 State.softResetAllSeq_advances).cfg
  rw [State.held, srst, cfg, and_not_and_self]

/-- The acknowledge bit is an RW bit, so it is kept with TYPE_C_CTRL (R44). -/
theorem RegKept.typecAck (kept : RegKept s t .typeCCtrl) (cfg : s.cfg = c) (wf : c.wf = true) :
    bitAt t.core.typeCCtrl c.map.typecDisableAck = bitAt s.core.typeCCtrl c.map.typecDisableAck := by
  subst cfg
  refine bitAt_congr kept.1 ?_
  simp [rwBits, RegMap.roHwMask, RegMap.w1cMask, bitAt_bitMask_of_ne (Cfg.typec_distinct wf)]

/-- Stage 2 leaves in the acknowledge bit the status bit of the word that it read. -/
theorem State.callOp_typecAckSeq_spec (cfg : s.cfg = c) (wf : c.wf = true) (noReset : s.held = 0#32) :
    let t := s.callOp .typecAck 0#32 0#32 State.typecAckSeq
    WritesOnly s t [.typeCCtrl] ∧ ∃ v new, t.trace = s.trace ++ new ∧ readEv s .typeCCtrl v ∈ new
      ∧ bitAt t.core.typeCCtrl c.map.typecDisableAck = bitAt v c.map.typecDisableStatus := by
  subst cfg
  intro t
  let called := s.pushFrame .typecAck 0#32 0#32
  let v := called.envMove.coreWord .typeCCtrl
  have ran : WritesOnly called called.typecAckSeq [.typeCCtrl] :=
    State.rmwT_writesOnly (s := called) noReset (typecAcked s.cfg.map) (by decide)
  have trace : t.trace = s.trace ++ [readEv s .typeCCtrl v, writeEv s .typeCCtrl (typecAcked s.cfg.map v)] := by
    rw [State.callOp_trace]; exact called.rmwT_trace _ _
  have word : t.core.typeCCtrl &&& storedBits s.cfg.map .typeCCtrl
      = typecAcked s.cfg.map v &&& storedBits s.cfg.map .typeCCtrl := by
    rw [State.callOp_core]; exact called.rmwT_storedBits (r := .typeCCtrl) (typecAcked s.cfg.map) (by simp [stored])
  refine ⟨State.callOp_writesOnly ran, v, _, trace, List.mem_cons_self, ?_⟩
  rw [bitAt_congr word (by simp [storedBits_typeCCtrl, bitAt_bitMask_of_ne (Cfg.typec_distinct wf)]), bitAt_typecAcked]

/-- Stage 3 powers all lanes down. -/
theorem State.callOp_lanesDown_spec (cfg : s.cfg = c) (wf : c.wf = true) (noReset : s.held = 0#32) :
    let t := s.callOp .setLanesPower 0#32 0#32 State.setLanesPowerSeq
    WritesOnly s t [.phyifCtrl] ∧ lanePower c t.core.phyifCtrl = ⟨false, false, false, false⟩ := by
  subst cfg
  intro t
  let called := s.pushFrame .setLanesPower 0#32 0#32
  obtain ⟨_, -, run, -, -, -, stored⟩ := called.setLanesPowerSeq_spec
  obtain ⟨regs, phycr, word, held⟩ := stored noReset
  have down : outsideBusy s t.core.phyifCtrl = outsideBusy s (lanesPowered s.cfg 0#32 s.core.phyifCtrl) := by
    rw [State.callOp_core]; exact word
  refine ⟨State.callOp_writesOnly ⟨run.cfg, held, regs, phycr⟩, ?_⟩
  rw [lanePower_congr (partMask_congr wf down .power), lanePower_lanesPowered wf]
  rfl

/-- Stage 4 writes 0 to CCTL. -/
theorem State.memWrite_cctl (s : State) (v : Word) : (s.memWrite .cctl v).core.cctl = v :=
  s.memWrite_whole .cctl v (by simp [stored]) rfl

/-- Stages 5 and 6 read the version words and write nothing. -/
theorem State.captures_writesOnly (noReset : s.held = 0#32) :
    WritesOnly s ((s.memRead .verNumber State.captureNumber).memRead .verType State.captureType) [] := by
  have number := s.memRead_writesOnly noReset .verNumber (keep := State.captureNumber)
    (fun _ _ => rfl) (fun _ _ => rfl) (fun _ _ => rfl)
  exact number.trans (State.memRead_writesOnly number.noReset .verType
    (fun _ _ => rfl) (fun _ _ => rfl) (fun _ _ => rfl))

/-- The width bit is no BUSY bit (R117 b), so words that agree outside BUSY agree in it. -/
theorem width_congr (wf : s.cfg.wf = true) {x y : Word} (h : outsideBusy s x = outsideBusy s y) :
    bitAt x s.cfg.map.width = bitAt y s.cfg.map.width := by
  have apart : bitMask s.cfg.map.width &&& s.cfg.map.busy.allMask = 0#32 :=
    disjointMasks_pair (Cfg.phyifRow_disjoint wf) (i := 4) (j := 6) (by decide) rfl rfl
  exact bitAt_congr (and_congr_of_disjoint h apart) (bitAt_bitMask_self _)

theorem bitAt_widthChosen (c : Cfg) (v : Word) : bitAt (widthChosen c v) c.map.width = !c.simMode := by
  unfold widthChosen
  cases c.simMode <;> simp

section kept
variable (kept : RegKept s t .phyifCtrl) (cfg : s.cfg = c) (wf : c.wf = true)
include kept cfg wf

/-- Lane power and width are outside BUSY, so they are kept with PHYIF_CTRL. -/
theorem RegKept.lanePower : lanePower c t.core.phyifCtrl = lanePower c s.core.phyifCtrl := by
  subst cfg
  exact lanePower_congr (partMask_congr wf kept.outsideBusy_eq .power)
theorem RegKept.width : bitAt t.core.phyifCtrl c.map.width = bitAt s.core.phyifCtrl c.map.width := by
  subst cfg
  exact width_congr wf kept.outsideBusy_eq

end kept

/-- The choice of the width is outside the power part (R117 b). -/
theorem widthChosen_power {c : Cfg} (wf : c.wf = true) (v : Word) :
    widthChosen c v &&& c.partMask .power = v &&& c.partMask .power := by
  have apart : bitMask c.map.width &&& c.partMask .power = 0#32 := by
    rw [BitVec.and_comm]
    exact disjointMasks_pair (Cfg.phyifRow_disjoint wf) (i := 0) (j := 4) (by decide) rfl rfl
  have chosen := setOrClear_outside apart (c.simMode = false) v
  unfold widthChosen
  cases sim : c.simMode <;> simpa [sim] using chosen

/-- Stage 7 chooses the width of the mode and leaves the lane power. -/
theorem State.phyWidthInit_spec (cfg : s.cfg = c) (wf : c.wf = true) (noReset : s.held = 0#32) :
    WritesOnly s s.phyWidthInit [.phyifCtrl]
      ∧ lanePower c s.phyWidthInit.core.phyifCtrl = lanePower c s.core.phyifCtrl
      ∧ bitAt s.phyWidthInit.core.phyifCtrl c.map.width = !c.simMode := by
  subst cfg
  have word : outsideBusy s s.phyWidthInit.core.phyifCtrl
      = outsideBusy s (widthChosen s.cfg s.envMove.core.phyifCtrl) := s.rmwT_phyif _
  refine ⟨State.rmwT_writesOnly noReset _ (by decide), lanePower_congr ?_, ?_⟩
  · rw [partMask_congr wf word .power, widthChosen_power wf]
    exact partMask_congr wf (s.envMove_phyif noReset) .power
  · rw [width_congr wf word, bitAt_widthChosen]

/-- Stages 3 to 7 of CORE_INIT (R176). -/
def State.coreInitTail (s : State) : State :=
  let down := s.callOp .setLanesPower 0#32 0#32 State.setLanesPowerSeq
  let cleared := down.memWrite .cctl 0#32
  ((cleared.memRead .verNumber State.captureNumber).memRead .verType State.captureType).phyWidthInit

/-- CORE_INIT is the nested reset, the nested TYPEC_ACK, and those stages. -/
theorem State.coreInitSeq_eq (s : State) : s.coreInitSeq =
    ((s.callOp .softResetAll 0#32 0#32 State.softResetAllSeq).callOp .typecAck 0#32 0#32
      State.typecAckSeq).coreInitTail := rfl

theorem State.coreInitTail_advances (s : State) : Advances s s.coreInitTail := by
  have down := (Advances.refl s).callOp .setLanesPower 0#32 0#32 State.setLanesPowerSeq_advances
  have number := (down.memWrite .cctl 0#32).memRead .verNumber fun x => (Advances.refl x).captureNumber
  exact (number.memRead .verType fun x => (Advances.refl x).captureType).trans (State.phyWidthInit_advances _)

/-- What they establish: the lanes go down, CCTL is cleared after that and the width is chosen last. -/
theorem State.coreInitTail_spec (cfg : s.cfg = c) (wf : c.wf = true) (noReset : s.held = 0#32) :
    WritesOnly s s.coreInitTail [.phyifCtrl, .cctl] ∧ s.coreInitTail.core.cctl = 0#32
      ∧ lanePower c s.coreInitTail.core.phyifCtrl = ⟨false, false, false, false⟩
      ∧ bitAt s.coreInitTail.core.phyifCtrl c.map.width = !c.simMode := by
  let down := s.callOp .setLanesPower 0#32 0#32 State.setLanesPowerSeq
  let cleared := down.memWrite .cctl 0#32
  let captured := (cleared.memRead .verNumber State.captureNumber).memRead .verType State.captureType
  obtain ⟨powers, power⟩ := State.callOp_lanesDown_spec cfg wf noReset
  have clears : WritesOnly down cleared [.cctl] := State.memWrite_writesOnly powers.noReset 0#32 (by decide)
  have captures : WritesOnly cleared captured [] := State.captures_writesOnly clears.noReset
  have untilWidth : WritesOnly down captured [.cctl] := clears.trans (captures.mono (by simp))
  have downCfg : down.cfg = c := powers.cfg.trans cfg
  obtain ⟨chooses, lanes, width⟩ :=
    State.phyWidthInit_spec (s := captured) (untilWidth.cfg.trans downCfg) wf untilWidth.noReset
  have afterClear : WritesOnly cleared s.coreInitTail [.phyifCtrl] := (captures.mono (by simp)).trans chooses
  have cctl : s.coreInitTail.core.cctl = cleared.core.cctl :=
    (afterClear.regKept (r := .cctl) (by decide)).eq_of_wholeRw rfl
  have staysDown := (untilWidth.regKept (r := .phyifCtrl) (by decide)).lanePower downCfg wf
  exact ⟨(powers.mono (by simp)).trans ((untilWidth.mono (by simp)).trans (chooses.mono (by simp))),
    cctl.trans (down.memWrite_cctl 0#32), lanes.trans (staysDown.trans power), width⟩

end coreInit

/-- Settles O31: each stage establishes its part, and what comes after it writes other registers or other bits. -/
theorem coreInitEstablishes : Obligations.CoreInitEstablishes := by
  intro s a b wf
  let accepted := s.accept .coreInit a b
  let reset := accepted.callOp .softResetAll 0#32 0#32 State.softResetAllSeq
  let acked := reset.callOp .typecAck 0#32 0#32 State.typecAckSeq
  let u := acked.coreInitTail
  let t := u.ret .ok 0#32
  have runs : exec (.coreInit a b) s = .next t :=
    congrArg (fun x : State => Host.Outcome.next (x.ret .ok 0#32)) accepted.coreInitSeq_eq
  have resets : Advances s reset :=
    ((Advances.refl s).accept .coreInit a b).callOp .softResetAll 0#32 0#32 State.softResetAllSeq_advances
  obtain ⟨acks, v, new, trace, read, ack⟩ :=
    State.callOp_typecAckSeq_spec resets.cfg wf (State.callOp_softResetAllSeq_held accepted)
  have ackedCfg : acked.cfg = s.cfg := acks.cfg.trans resets.cfg
  obtain ⟨inits, cctl, power, width⟩ := State.coreInitTail_spec ackedCfg wf acks.noReset
  have ends : WritesOnly u t [] := State.ret_writesOnly inits.noReset .ok 0#32
  have uCfg : u.cfg = s.cfg := inits.cfg.trans ackedCfg
  have tCfg : t.cfg = s.cfg := ends.cfg.trans uCfg
  have phyif : RegKept u t .phyifCtrl := ends.regKept (by simp)
  have typec : RegKept acked t .typeCCtrl := (inits.trans (ends.mono (by simp))).regKept (by decide)
  obtain ⟨before, hbefore⟩ := resets.trace
  obtain ⟨after, hafter⟩ := (acked.coreInitTail_advances.ret .ok 0#32).trace
  have traced : t.trace = s.trace ++ (before ++ new ++ after) := by
    rw [← hafter, trace, ← hbefore]; simp only [List.append_assoc]
  refine ⟨t, runs, tCfg ▸ ends.noReset, ?_, ?_, (phyif.width uCfg wf).trans width, v, _, traced, ?_,
    (typec.typecAck ackedCfg wf).trans ack⟩
  · exact ((ends.regKept (r := .cctl) (by simp)).eq_of_wholeRw rfl).trans cctl
  · rw [State.phyConfig_powered, tCfg]; exact (phyif.lanePower uCfg wf).trans power
  · rw [readEv_congr resets.cfg] at read; simp [read]

end Sys2Proof.Machine
